-- ==== Sys2Proof/Word.lean ====
section
/-! DEFINITION. The widths of the Turtle16 core (00_scope.md R2, R11): every general register, the PC, every
instruction word, every data word and every ALU operand is a 16-bit word. -/

namespace Sys2Proof

/-- A 16-bit word: register, PC, instruction word, data word, data address (00_scope.md R2). -/
abbrev Word := BitVec 16

/-- The number of a general register, r0 to r7 (10_state.md R30). -/
abbrev RegIdx := BitVec 3

/-- An opcode, `ins[15:11]` (30_encoding.md R101). -/
abbrev Opcode := BitVec 5

/-- A control word of 23 signal bits (40_decoder.md R142). -/
abbrev Ctl := BitVec 23

end Sys2Proof
end

