-- ==== Sys2Proof/Config.lean ====
section
/-! DEFINITION. What an implementation fixes and what the spec leaves open, as opaque constants: nothing in Lean can
evaluate them, so a claim holds whatever they are (93_implementation_defined.md K3, K4, K7). -/

namespace Sys2Proof

/-- One call the core made to a callback of its host (20_memory.md R75): `load(a)`, which answered `v`, or
`store(v, a)`. -/
inductive HostCall where
  | load (a v : Word)
  | store (v a : Word)
deriving DecidableEq, Repr

/-- RESET_CYCLES less one. The spec leaves the parameter open but for its being at least 1
(70_reset_and_hazards.md R431). Log entry 2. -/
opaque Config.resetCyclesLessOne : Nat

/-- RESET_CYCLES, a natural number of at least 1 (00_scope.md R11, 70_reset_and_hazards.md R431). -/
def Config.resetCycles : Nat := Config.resetCyclesLessOne + 1

/-- The host's answer to `load(a)` after the calls `before`, where State holds no answer given in advance: any 16-bit
value (20_memory.md R77, 93_implementation_defined.md K3). A FREE VALUE, applied to the whole record of calls, so that
two calls need not answer alike even at one address. Log entry 3. -/
opaque Config.loadAnswer (before : List HostCall) (a : Word) : Word

/-- What a caller of the ALU that needs a value reads on a tri-stated output: any value
(93_implementation_defined.md K7). A FREE VALUE; the pipeline never reads it (41_alu.md R213). Log entry 8. -/
opaque Config.tristated : Word

end Sys2Proof
end

