-- ==== Sys2Proof/Machine/Parts.lean ====
section
/-! DEFINITION. The pieces State is made of: registers, flags, boundary registers, ALU latches, the instruction memory
and the host's side of the data space (10_state.md R30 to R40), with the bubble of each boundary register (R37). -/

namespace Sys2Proof.Machine

/-- The register file: r0 to r7, none of them hard-wired (10_state.md R30). -/
abbrev Regs := Vector Word 8

/-- The flags register (10_state.md R32). -/
structure Flags where
  /-- N, negative. -/
  n : Bool
  /-- C, carry; after a subtraction, no borrow (41_alu.md R208). -/
  c : Bool
  /-- Z, zero. -/
  z : Bool
  /-- V, signed overflow. -/
  v : Bool
deriving DecidableEq, Repr

/-- The IF/ID boundary register (10_state.md R36). -/
structure IfId where
  /-- The instruction word fetched in the previous step. -/
  ins : Word
deriving DecidableEq, Repr

/-- The ID/EX boundary register (10_state.md R36). -/
structure IdEx where
  /-- The control word decoded in ID. -/
  ctl : Ctl
  /-- The left ALU operand: port A after forwarding. -/
  left : Word
  /-- The right ALU operand, selected by SelRightOp. -/
  right : Word
  /-- The store operand, selected by SelStoreOp. -/
  storeOp : Word
  /-- The destination register, `ins[10:8]`. -/
  selC : RegIdx
  /-- The relative jump offset, `sext_10(ins[9:0])`. -/
  off : Word
deriving DecidableEq, Repr

/-- The EX/MEM boundary register (10_state.md R36). -/
structure ExMem where
  ctl : Ctl
  /-- The ALU result of the EX step. -/
  y : Word
  storeOp : Word
  selC : RegIdx
deriving DecidableEq, Repr

/-- The MEM/WB boundary register (10_state.md R36). -/
structure MemWb where
  ctl : Ctl
  y : Word
  /-- The data-path value of the MEM step: the load's answer or the store operand. -/
  data : Word
  selC : RegIdx
deriving DecidableEq, Repr

/-- The three latches of the ALU (10_state.md R39, 41_alu.md R201). -/
structure AluLatches where
  /-- The registered A operand. -/
  aluA : Word
  /-- The registered B operand. -/
  aluB : Word
  /-- The registered result. -/
  aluF : Word
deriving DecidableEq, Repr

/-- One listed word of the instruction memory: its word address and the word there. The unit is the word: there is no
byte addressing anywhere in the core (20_memory.md R73). Log entry 6. -/
abbrev WordCell := Nat × Word

/-- The instruction memory, as the words that are not 0x0000, by rising address (20_memory.md R71). Log entry 5. -/
abbrev Memory := List WordCell

/-- The data space as the core meets it: the calls of its host's callbacks (20_memory.md R70, R75). Both fields are
the model's own; log entries 3 and 4. -/
structure DataSpace where
  /-- The answers the host gives to the coming calls of `load`, the next one first; none listed means free ones
  (20_memory.md R77). A natural number, since a host could answer outside 16 bits, which is refused
  (60_exceptions.md R411). -/
  answers : List Nat
  /-- The calls made so far, the oldest first (20_memory.md R76, R80). -/
  calls : List HostCall
deriving DecidableEq, Repr

/-- The NOP control word: both operands marked unused, nothing else asserted (40_decoder.md R166). -/
def nopWord : Ctl := 0x600000#23

/-- The bubble of IF/ID: the word 0x0000 (10_state.md R37). -/
def IfId.bubble : IfId := { ins := 0 }

/-- The bubble of ID/EX: the NOP control word and 0 in every other field (10_state.md R37). -/
def IdEx.bubble : IdEx := { ctl := nopWord, left := 0, right := 0, storeOp := 0, selC := 0, off := 0 }

/-- The bubble of EX/MEM (10_state.md R37). -/
def ExMem.bubble : ExMem := { ctl := nopWord, y := 0, storeOp := 0, selC := 0 }

/-- The bubble of MEM/WB (10_state.md R37). -/
def MemWb.bubble : MemWb := { ctl := nopWord, y := 0, data := 0, selC := 0 }

/-- The registers after a hard reset and at power-on (10_state.md R43). -/
def Regs.zero : Regs := Vector.replicate 8 0

/-- The flags after a reset (10_state.md R43). -/
def Flags.clear : Flags := { n := false, c := false, z := false, v := false }

/-- The ALU latches after a reset (10_state.md R43). -/
def AluLatches.zero : AluLatches := { aluA := 0, aluB := 0, aluF := 0 }

end Sys2Proof.Machine
end

