-- ==== Sys2Proof/Machine/Alu.lean ====
section
/-! DEFINITION. The ALU unit (41_alu.md): a function of its operands, its controls and its latches, with an optional
result. -/

namespace Sys2Proof.Machine

/-- The six latch control lines (41_alu.md R201). -/
structure AluLines where
  /-- Flow-through A/B: the operands are the current inputs. -/
  ftab : Bool
  /-- Flow-through F: the output is the current combinational result. -/
  ftf : Bool
  /-- Enable the A register. -/
  ena : Bool
  /-- Enable the B register. -/
  enb : Bool
  /-- Enable the F register. -/
  enf : Bool
  /-- Output enable of F. -/
  oef : Bool
deriving DecidableEq, Repr

/-- Every line asserted: the setting of the pipeline (41_alu.md R213). -/
def AluLines.flowThrough : AluLines :=
  { ftab := true, ftf := true, ena := true, enb := true, enf := true, oef := true }

/-- What the ALU answers (41_alu.md R200). -/
structure AluResult where
  /-- F: `none` when tri-stated (R210). -/
  f : Option Word
  /-- The carry out of bit 15 (R205). -/
  c16 : Bool
  /-- Whether the combinational result is 0 (R209). -/
  zero : Bool
  /-- The two's complement overflow (R206). -/
  ovf : Bool
  /-- The latches after the call (R211). -/
  latches : AluLatches
deriving DecidableEq, Repr

/-- What one function of the function block gives: `(Fc, C16, OVF)` (41_alu.md R204 to R207). -/
structure AluValue where
  fc : Word
  c16 : Bool
  ovf : Bool
deriving DecidableEq, Repr

/-- `add(X, Y, c)`: the exact sum narrowed to 16 bits, its carry out, and the carry into bit 15 exclusive-or the carry
out of it (41_alu.md R205, R206, R212). -/
def aluAdd (x y : Word) (c : Bool) : AluValue :=
  let s := x.toNat + y.toNat + c.toNat
  let low := x.toNat % 2 ^ 15 + y.toNat % 2 ^ 15 + c.toNat
  { fc := BitVec.ofNat 16 s, c16 := s.testBit 16, ovf := low.testBit 15 != s.testBit 16 }

/-- A logic or constant function gives no carry and no overflow (41_alu.md R207). -/
def aluLogic (f : Word) : AluValue := { fc := f, c16 := false, ovf := false }

/-- The eight functions by code `I = {I2, I1, I0}` (41_alu.md R204). -/
def aluFunction (i : BitVec 3) (r s : Word) (c0 : Bool) : AluValue :=
  match i.toNat with
  | 0 => aluLogic 0
  | 1 => aluAdd (~~~r) s c0
  | 2 => aluAdd r (~~~s) c0
  | 3 => aluAdd r s c0
  | 4 => aluLogic (r ^^^ s)
  | 5 => aluLogic (r ||| s)
  | 6 => aluLogic (r &&& s)
  | _ => aluLogic 0xFFFF

/-- The inputs R and S by routing code `RS = {RS1, RS0}`, from the effective operands and the latched F
(41_alu.md R203). -/
def aluRoute (rs : BitVec 2) (ae be aluF : Word) : Word × Word :=
  match rs.toNat with
  | 0 => (ae, aluF)
  | 1 => (ae, 0)
  | 2 => (0, be)
  | _ => (ae, be)

/-- The ALU (41_alu.md R200, R202, R209 to R212). -/
def alu (a b : Word) (c0 : Bool) (i : BitVec 3) (rs : BitVec 2) (lines : AluLines) (l : AluLatches) : AluResult :=
  let ae := if lines.ftab then a else l.aluA
  let be := if lines.ftab then b else l.aluB
  let routed := aluRoute rs ae be l.aluF
  let v := aluFunction i routed.1 routed.2 c0
  let fo := if lines.ftf then v.fc else l.aluF
  { f := if lines.oef then some fo else none
    c16 := v.c16
    zero := v.fc == 0
    ovf := v.ovf
    latches := { aluA := if lines.ena then a else l.aluA
                 aluB := if lines.enb then b else l.aluB
                 aluF := if lines.enf then v.fc else l.aluF } }

end Sys2Proof.Machine
end

