-- ==== Sys2Proof/Syntax.lean ====
section
/-! DEFINITION. The instructions: one constructor per row of spec/opcode_table.json, in the table's order
(30_encoding.md R106). Operands are the fields of the row's format (R102, R103), in the order C, A, B or the
immediate, left to right as they stand in the word. A last or first operand called `ign` holds the bits the format
ignores: they have no effect on any result (R103, R108), but the ID stage latches fields cut from them
(43_pipeline.md R268), so that a state of the pipeline depends on them. Log entry 9. -/

namespace Sys2Proof

/-- The 32 opcodes. -/
inductive Instr where
  /-- 0, `NOP` (46_control_instructions.md R370). -/
  | nop (ign : BitVec 11)
  /-- 1, `HLT` (R371). -/
  | hlt (ign : BitVec 11)
  /-- 2, `LOAD rC, rA, imm` (45_memory_and_immediate_instructions.md R340). -/
  | load (c a : RegIdx) (imm : BitVec 5)
  /-- 3, `STORE rB, rA, imm` (R341); `imm` is simm, split around the B field in the word (30_encoding.md R104). -/
  | store (b a : RegIdx) (imm : BitVec 5)
  /-- 4, `LI rC, imm` (R342). -/
  | li (c : RegIdx) (imm : BitVec 8)
  /-- 5, `LUI rC, imm` (R343). -/
  | lui (c : RegIdx) (imm : BitVec 8)
  /-- 6, `CMP rA, rB` (44_alu_instructions.md R301); `ign` is `ins[10:8]`, `ign2` is `ins[1:0]`. -/
  | cmp (ign : BitVec 3) (a b : RegIdx) (ign2 : BitVec 2)
  /-- 7, `ADD rC, rA, rB` (R302). -/
  | add (c a b : RegIdx) (ign : BitVec 2)
  /-- 8, `SUB rC, rA, rB` (R303). -/
  | sub (c a b : RegIdx) (ign : BitVec 2)
  /-- 9, `AND rC, rA, rB` (R304). -/
  | and (c a b : RegIdx) (ign : BitVec 2)
  /-- 10, `OR rC, rA, rB` (R305). -/
  | or (c a b : RegIdx) (ign : BitVec 2)
  /-- 11, `XOR rC, rA, rB` (R306). -/
  | xor (c a b : RegIdx) (ign : BitVec 2)
  /-- 12, `NOT rC, rA` (R307). -/
  | not (c a : RegIdx) (ign : BitVec 5)
  /-- 13, `CMPI rA, imm` (R308); `ign` is `ins[10:8]`. -/
  | cmpi (ign : BitVec 3) (a : RegIdx) (imm : BitVec 5)
  /-- 14, `ADDI rC, rA, imm` (R309). -/
  | addi (c a : RegIdx) (imm : BitVec 5)
  /-- 15, `SUBI rC, rA, imm` (R310). -/
  | subi (c a : RegIdx) (imm : BitVec 5)
  /-- 16, `ANDI rC, rA, imm` (R311). -/
  | andi (c a : RegIdx) (imm : BitVec 5)
  /-- 17, `ORI rC, rA, imm` (R312). -/
  | ori (c a : RegIdx) (imm : BitVec 5)
  /-- 18, `XORI rC, rA, imm` (R313). -/
  | xori (c a : RegIdx) (imm : BitVec 5)
  /-- 19, reserved (46_control_instructions.md R381). -/
  | rsvd19 (ign : BitVec 11)
  /-- 20, `JMP off` (R372); `ign` is `ins[10]`. -/
  | jmp (ign : BitVec 1) (off : BitVec 10)
  /-- 21, `JR rA, rB` (R373); `ign` is `ins[10:8]`, `ign2` is `ins[1:0]`. -/
  | jr (ign : BitVec 3) (a b : RegIdx) (ign2 : BitVec 2)
  /-- 22, `JALR rC, rA, rB` (R374). -/
  | jalr (c a b : RegIdx) (ign : BitVec 2)
  /-- 23, reserved (R381). -/
  | rsvd23 (ign : BitVec 11)
  /-- 24, `BEQ off` (R375). -/
  | beq (ign : BitVec 1) (off : BitVec 10)
  /-- 25, `BNE off` (R376). -/
  | bne (ign : BitVec 1) (off : BitVec 10)
  /-- 26, `BLT off` (R377). -/
  | blt (ign : BitVec 1) (off : BitVec 10)
  /-- 27, `BGT off` (R378). -/
  | bgt (ign : BitVec 1) (off : BitVec 10)
  /-- 28, `BLTU off` (R379). -/
  | bltu (ign : BitVec 1) (off : BitVec 10)
  /-- 29, `BGTU off` (R380). -/
  | bgtu (ign : BitVec 1) (off : BitVec 10)
  /-- 30, `ADC rC, rA, rB` (44_alu_instructions.md R314). -/
  | adc (c a b : RegIdx) (ign : BitVec 2)
  /-- 31, `SBC rC, rA, rB` (R315). -/
  | sbc (c a b : RegIdx) (ign : BitVec 2)
deriving DecidableEq, Repr

end Sys2Proof
end

