-- ==== Sys2Proof/WellFormed.lean ====
section
/-! DEFINITION. What a well-formed instruction is: one an assembler would write, with every bit its format ignores
clear (30_encoding.md R103, R109; 46_control_instructions.md R370 calls 0x0000 the canonical word of NOP). The widths
of the operands are in their types. The core itself checks nothing: every word decodes and runs, well-formed or not
(30_encoding.md R108, 60_exceptions.md R414), so no meaning asks for this. -/

namespace Sys2Proof

/-- Every bit the instruction's format ignores is 0 (30_encoding.md R103). -/
def Instr.wellFormed : Instr → Bool
  | .nop ign | .hlt ign | .rsvd19 ign | .rsvd23 ign => ign == 0#11
  | .load _ _ _ | .store _ _ _ | .li _ _ | .lui _ _ => true
  | .cmp ign _ _ ign2 | .jr ign _ _ ign2 => ign == 0#3 && ign2 == 0#2
  | .add _ _ _ ign | .sub _ _ _ ign | .and _ _ _ ign | .or _ _ _ ign | .xor _ _ _ ign => ign == 0#2
  | .adc _ _ _ ign | .sbc _ _ _ ign | .jalr _ _ _ ign => ign == 0#2
  | .not _ _ ign => ign == 0#5
  | .cmpi ign _ _ => ign == 0#3
  | .addi _ _ _ | .subi _ _ _ | .andi _ _ _ | .ori _ _ _ | .xori _ _ _ => true
  | .jmp ign _ | .beq ign _ | .bne ign _ | .blt ign _ | .bgt ign _ | .bltu ign _ | .bgtu ign _ => ign == 0#1

/-- The instruction with the bits its format ignores cleared: the form an assembler writes (30_encoding.md R103). -/
def Instr.canonical : Instr → Instr
  | .nop _ => .nop 0
  | .hlt _ => .hlt 0
  | .rsvd19 _ => .rsvd19 0
  | .rsvd23 _ => .rsvd23 0
  | .cmp _ a b _ => .cmp 0 a b 0
  | .jr _ a b _ => .jr 0 a b 0
  | .add c a b _ => .add c a b 0
  | .sub c a b _ => .sub c a b 0
  | .and c a b _ => .and c a b 0
  | .or c a b _ => .or c a b 0
  | .xor c a b _ => .xor c a b 0
  | .adc c a b _ => .adc c a b 0
  | .sbc c a b _ => .sbc c a b 0
  | .jalr c a b _ => .jalr c a b 0
  | .not c a _ => .not c a 0
  | .cmpi _ a imm => .cmpi 0 a imm
  | .jmp _ off => .jmp 0 off
  | .beq _ off => .beq 0 off
  | .bne _ off => .bne 0 off
  | .blt _ off => .blt 0 off
  | .bgt _ off => .bgt 0 off
  | .bltu _ off => .bltu 0 off
  | .bgtu _ off => .bgtu 0 off
  | .load c a imm => .load c a imm
  | .store b a imm => .store b a imm
  | .li c imm => .li c imm
  | .lui c imm => .lui c imm
  | .addi c a imm => .addi c a imm
  | .subi c a imm => .subi c a imm
  | .andi c a imm => .andi c a imm
  | .ori c a imm => .ori c a imm
  | .xori c a imm => .xori c a imm

end Sys2Proof
end

