-- ==== Sys2Proof/Decode.lean ====
section
/-! DEFINITION. The instruction word: its fields (30_encoding.md R101, R102), the decoder from words to instructions
(R106, R108) and the encoder back (R103). The decoder of control words, from flags and opcode, is
Machine/ControlWord.lean. -/

namespace Sys2Proof

/-- `op = ins[15:11]` (30_encoding.md R101). -/
def opcodeOf (ins : Word) : Opcode := ins.extractLsb' 11 5

/-- `C = ins[10:8]`, the destination register (30_encoding.md R102). -/
def fieldC (ins : Word) : RegIdx := ins.extractLsb' 8 3

/-- `A = ins[7:5]`, the register of port A (30_encoding.md R102). -/
def fieldA (ins : Word) : RegIdx := ins.extractLsb' 5 3

/-- `B = ins[4:2]`, the register of port B (30_encoding.md R102). -/
def fieldB (ins : Word) : RegIdx := ins.extractLsb' 2 3

/-- `imm5 = ins[4:0]` (30_encoding.md R102). -/
def fieldImm5 (ins : Word) : BitVec 5 := ins.extractLsb' 0 5

/-- `imm8 = ins[7:0]` (30_encoding.md R102). -/
def fieldImm8 (ins : Word) : BitVec 8 := ins.extractLsb' 0 8

/-- `off10 = ins[9:0]` (30_encoding.md R102). -/
def fieldOff10 (ins : Word) : BitVec 10 := ins.extractLsb' 0 10

/-- `ins[1:0]`: the low part of simm, or ignored (30_encoding.md R103). -/
def fieldLow2 (ins : Word) : BitVec 2 := ins.extractLsb' 0 2

/-- `simm = {ins[10:8], ins[1:0]}`, the offset of STORE, split around the B field (30_encoding.md R102). -/
def fieldSimm (ins : Word) : BitVec 5 := fieldC ins ++ fieldLow2 ins

/-- `ins[10:0]`, the bits format Z ignores (30_encoding.md R103). -/
def fieldLow11 (ins : Word) : BitVec 11 := ins.extractLsb' 0 11

/-- `ins[10]`, the bit format J10 ignores (30_encoding.md R103). -/
def fieldBit10 (ins : Word) : BitVec 1 := ins.extractLsb' 10 1

/-- The instruction a word stands for (30_encoding.md R106). Total: every one of the 65536 words decodes (R108). -/
def decode (ins : Word) : Instr :=
  match (opcodeOf ins).toNat with
  | 0 => .nop (fieldLow11 ins)
  | 1 => .hlt (fieldLow11 ins)
  | 2 => .load (fieldC ins) (fieldA ins) (fieldImm5 ins)
  | 3 => .store (fieldB ins) (fieldA ins) (fieldSimm ins)
  | 4 => .li (fieldC ins) (fieldImm8 ins)
  | 5 => .lui (fieldC ins) (fieldImm8 ins)
  | 6 => .cmp (fieldC ins) (fieldA ins) (fieldB ins) (fieldLow2 ins)
  | 7 => .add (fieldC ins) (fieldA ins) (fieldB ins) (fieldLow2 ins)
  | 8 => .sub (fieldC ins) (fieldA ins) (fieldB ins) (fieldLow2 ins)
  | 9 => .and (fieldC ins) (fieldA ins) (fieldB ins) (fieldLow2 ins)
  | 10 => .or (fieldC ins) (fieldA ins) (fieldB ins) (fieldLow2 ins)
  | 11 => .xor (fieldC ins) (fieldA ins) (fieldB ins) (fieldLow2 ins)
  | 12 => .not (fieldC ins) (fieldA ins) (fieldImm5 ins)
  | 13 => .cmpi (fieldC ins) (fieldA ins) (fieldImm5 ins)
  | 14 => .addi (fieldC ins) (fieldA ins) (fieldImm5 ins)
  | 15 => .subi (fieldC ins) (fieldA ins) (fieldImm5 ins)
  | 16 => .andi (fieldC ins) (fieldA ins) (fieldImm5 ins)
  | 17 => .ori (fieldC ins) (fieldA ins) (fieldImm5 ins)
  | 18 => .xori (fieldC ins) (fieldA ins) (fieldImm5 ins)
  | 19 => .rsvd19 (fieldLow11 ins)
  | 20 => .jmp (fieldBit10 ins) (fieldOff10 ins)
  | 21 => .jr (fieldC ins) (fieldA ins) (fieldB ins) (fieldLow2 ins)
  | 22 => .jalr (fieldC ins) (fieldA ins) (fieldB ins) (fieldLow2 ins)
  | 23 => .rsvd23 (fieldLow11 ins)
  | 24 => .beq (fieldBit10 ins) (fieldOff10 ins)
  | 25 => .bne (fieldBit10 ins) (fieldOff10 ins)
  | 26 => .blt (fieldBit10 ins) (fieldOff10 ins)
  | 27 => .bgt (fieldBit10 ins) (fieldOff10 ins)
  | 28 => .bltu (fieldBit10 ins) (fieldOff10 ins)
  | 29 => .bgtu (fieldBit10 ins) (fieldOff10 ins)
  | 30 => .adc (fieldC ins) (fieldA ins) (fieldB ins) (fieldLow2 ins)
  | _ => .sbc (fieldC ins) (fieldA ins) (fieldB ins) (fieldLow2 ins)

/-- The opcode of an instruction: the "op" column of 30_encoding.md R106. -/
def Instr.opcode : Instr → Opcode
  | .nop _ => 0
  | .hlt _ => 1
  | .load _ _ _ => 2
  | .store _ _ _ => 3
  | .li _ _ => 4
  | .lui _ _ => 5
  | .cmp _ _ _ _ => 6
  | .add _ _ _ _ => 7
  | .sub _ _ _ _ => 8
  | .and _ _ _ _ => 9
  | .or _ _ _ _ => 10
  | .xor _ _ _ _ => 11
  | .not _ _ _ => 12
  | .cmpi _ _ _ => 13
  | .addi _ _ _ => 14
  | .subi _ _ _ => 15
  | .andi _ _ _ => 16
  | .ori _ _ _ => 17
  | .xori _ _ _ => 18
  | .rsvd19 _ => 19
  | .jmp _ _ => 20
  | .jr _ _ _ _ => 21
  | .jalr _ _ _ _ => 22
  | .rsvd23 _ => 23
  | .beq _ _ => 24
  | .bne _ _ => 25
  | .blt _ _ => 26
  | .bgt _ _ => 27
  | .bltu _ _ => 28
  | .bgtu _ _ => 29
  | .adc _ _ _ _ => 30
  | .sbc _ _ _ _ => 31

/-- Why a list of words gives no instruction. There is one reason only: no word is illegal (30_encoding.md R108). -/
inductive DecodeError where
  /-- The list holds no word; every instruction is one word (30_encoding.md R100). -/
  | noWord
deriving DecidableEq, Repr

/-- The first instruction of a list of words, and the words after it (30_encoding.md R100: one word each). -/
def decodeWords : List Word → Except DecodeError (Instr × List Word)
  | [] => .error .noWord
  | ins :: rest => .ok (decode ins, rest)

/-- Format Z: `ooooo xxxxxxxxxxx` (30_encoding.md R103). -/
def formatZ (op : Opcode) (ign : BitVec 11) : Word := op ++ ign

/-- Formats RRR and RR: `ooooo ccc aaa bbb xx`; RR ignores the C field (30_encoding.md R103). -/
def formatRRR (op : Opcode) (c a b : RegIdx) (low : BitVec 2) : Word := op ++ c ++ a ++ b ++ low

/-- Formats RRI, RI and R2: `ooooo ccc aaa iiiii`; RI ignores the C field, R2 the low five bits
(30_encoding.md R103). -/
def formatRRI (op : Opcode) (c a : RegIdx) (imm : BitVec 5) : Word := op ++ c ++ a ++ imm

/-- Format RI8: `ooooo ccc kkkkkkkk` (30_encoding.md R103). -/
def formatRI8 (op : Opcode) (c : RegIdx) (imm : BitVec 8) : Word := op ++ c ++ imm

/-- Format ST: `ooooo hhh aaa bbb ll`, `imm = {hhh, ll}` (30_encoding.md R103, R104). -/
def formatST (op : Opcode) (b a : RegIdx) (imm : BitVec 5) : Word :=
  op ++ imm.extractLsb' 2 3 ++ a ++ b ++ imm.extractLsb' 0 2

/-- Format J10: `ooooo x dddddddddd` (30_encoding.md R103). -/
def formatJ10 (op : Opcode) (ign : BitVec 1) (off : BitVec 10) : Word := op ++ ign ++ off

/-- The word of an instruction (30_encoding.md R103, R106). -/
def encode : Instr → Word
  | .nop ign => formatZ 0 ign
  | .hlt ign => formatZ 1 ign
  | .load c a imm => formatRRI 2 c a imm
  | .store b a imm => formatST 3 b a imm
  | .li c imm => formatRI8 4 c imm
  | .lui c imm => formatRI8 5 c imm
  | .cmp ign a b ign2 => formatRRR 6 ign a b ign2
  | .add c a b ign => formatRRR 7 c a b ign
  | .sub c a b ign => formatRRR 8 c a b ign
  | .and c a b ign => formatRRR 9 c a b ign
  | .or c a b ign => formatRRR 10 c a b ign
  | .xor c a b ign => formatRRR 11 c a b ign
  | .not c a ign => formatRRI 12 c a ign
  | .cmpi ign a imm => formatRRI 13 ign a imm
  | .addi c a imm => formatRRI 14 c a imm
  | .subi c a imm => formatRRI 15 c a imm
  | .andi c a imm => formatRRI 16 c a imm
  | .ori c a imm => formatRRI 17 c a imm
  | .xori c a imm => formatRRI 18 c a imm
  | .rsvd19 ign => formatZ 19 ign
  | .jmp ign off => formatJ10 20 ign off
  | .jr ign a b ign2 => formatRRR 21 ign a b ign2
  | .jalr c a b ign => formatRRR 22 c a b ign
  | .rsvd23 ign => formatZ 23 ign
  | .beq ign off => formatJ10 24 ign off
  | .bne ign off => formatJ10 25 ign off
  | .blt ign off => formatJ10 26 ign off
  | .bgt ign off => formatJ10 27 ign off
  | .bltu ign off => formatJ10 28 ign off
  | .bgtu ign off => formatJ10 29 ign off
  | .adc c a b ign => formatRRR 30 c a b ign
  | .sbc c a b ign => formatRRR 31 c a b ign

/-- The instruction read from the low `nbits` bits of `w`, the table's numbering of a row's bits. An instruction is
one word, which the hardware stores whole: there are no bytes to order (20_memory.md R73). -/
def decodeTableWord (nbits w : Nat) : Option Instr :=
  match decodeWords [BitVec.ofNat 16 (w % 2 ^ nbits)] with
  | .ok (i, _) => some i
  | .error _ => none

end Sys2Proof
end

