-- ==== Sys2Proof/Machine/ControlWord.lean ====
section
/-! DEFINITION. The decoder of control words (40_decoder.md): the 23 signals of a word (R142), the index made of flags
and opcode (R141), the reference table (R166 to R171) and the gate-level form (R172, R173). -/

namespace Sys2Proof

/-! ## The signals (40_decoder.md R142) -/

/-- HLT, bit 0: halt when in EX (R143). -/
def Ctl.hlt (w : Ctl) : Bool := w.getLsbD 0
/-- SelStoreOp = `{SelStoreOpB, SelStoreOpA}`, bits 2 and 1 (R144, R145, R150). -/
def Ctl.selStoreOp (w : Ctl) : BitVec 2 := w.extractLsb' 1 2
/-- SelRightOp = `{SelRightOpB, SelRightOpA}`, bits 4 and 3 (R146, R147, R149). -/
def Ctl.selRightOp (w : Ctl) : BitVec 2 := w.extractLsb' 3 2
/-- FI, bit 5: the EX stage writes the flags (R148). -/
def Ctl.fi (w : Ctl) : Bool := w.getLsbD 5
/-- C0, bit 6: the ALU's carry-in (R151). -/
def Ctl.c0 (w : Ctl) : Bool := w.getLsbD 6
/-- I = `{I2, I1, I0}`, bits 9 to 7: the ALU function (R152). -/
def Ctl.i (w : Ctl) : BitVec 3 := w.extractLsb' 7 3
/-- RS = `{RS1, RS0}`, bits 11 and 10: the ALU routing (R153). -/
def Ctl.rs (w : Ctl) : BitVec 2 := w.extractLsb' 10 2
/-- J, bit 12: jump when in EX (R154). -/
def Ctl.j (w : Ctl) : Bool := w.getLsbD 12
/-- JABS, bit 13: the jump is absolute (R155). -/
def Ctl.jabs (w : Ctl) : Bool := w.getLsbD 13
/-- MemLoad, bit 14: call `load` in MEM (R156). -/
def Ctl.memLoad (w : Ctl) : Bool := w.getLsbD 14
/-- MemStore, bit 15: call `store` in MEM (R157). -/
def Ctl.memStore (w : Ctl) : Bool := w.getLsbD 15
/-- AssertStoreOp, bit 16: the store operand is the data-path value of MEM (R158). -/
def Ctl.assertStoreOp (w : Ctl) : Bool := w.getLsbD 16
/-- WriteBackSrcFlag, bit 17: WB writes the data-path value, not the ALU result (R159). -/
def Ctl.writeBackSrc (w : Ctl) : Bool := w.getLsbD 17
/-- WRL, bit 18: WB writes the low byte (R160). -/
def Ctl.wrl (w : Ctl) : Bool := w.getLsbD 18
/-- WRH, bit 19: WB writes the high byte (R161). -/
def Ctl.wrh (w : Ctl) : Bool := w.getLsbD 19
/-- WBEN, bit 20: WB writes a register (R162). -/
def Ctl.wben (w : Ctl) : Bool := w.getLsbD 20
/-- LeftOperandIsUnused, bit 21 (R163). -/
def Ctl.leftUnused (w : Ctl) : Bool := w.getLsbD 21
/-- RightOperandIsUnused, bit 22 (R164). -/
def Ctl.rightUnused (w : Ctl) : Bool := w.getLsbD 22

end Sys2Proof

namespace Sys2Proof.Machine

/-- The relative-jump control word: NOPW with J asserted (40_decoder.md R166). -/
def jumpWord : Ctl := 0x601000#23

/-! ## The index (40_decoder.md R141) -/

/-- The flag nibble `{N, C, Z, V}` (R141). -/
def Flags.nibble (f : Flags) : BitVec 4 :=
  BitVec.ofBool f.n ++ BitVec.ofBool f.c ++ BitVec.ofBool f.z ++ BitVec.ofBool f.v

/-- The flags a nibble stands for (R141). -/
def Flags.ofNibble (x : BitVec 4) : Flags :=
  { n := x.getLsbD 3, c := x.getLsbD 2, z := x.getLsbD 1, v := x.getLsbD 0 }

/-- `index = flags << 5 | opcode` (R140, R141). -/
def decoderIndex (f : Flags) (op : Opcode) : BitVec 9 := f.nibble ++ op

/-- The flags in an index, `index[8:5]` (R141). -/
def indexFlags (index : BitVec 9) : Flags := Flags.ofNibble (index.extractLsb' 5 4)

/-- The opcode in an index, `index[4:0]` (R141). -/
def indexOpcode (index : BitVec 9) : Opcode := index.extractLsb' 0 5

/-! ## The reference table -/

/-- The predicate of a conditional branch, by opcode 24 to 29, over the flags (40_decoder.md R168). -/
def branchTaken (op : Nat) (f : Flags) : Bool :=
  match op with
  | 24 => f.z
  | 25 => !f.z
  | 26 => f.n != f.v
  | 27 => !f.z && f.n == f.v
  | 28 => !f.c
  | 29 => f.c && !f.z
  | _ => false

/-- One row of the table of 40_decoder.md R167: the numbers of its columns and the other asserted signals. -/
structure Signals where
  i : BitVec 3 := 0
  rs : BitVec 2 := 0
  selRightOp : BitVec 2 := 0
  selStoreOp : BitVec 2 := 0
  hlt : Bool := false
  fi : Bool := false
  c0 : Bool := false
  j : Bool := false
  jabs : Bool := false
  memLoad : Bool := false
  memStore : Bool := false
  assertStoreOp : Bool := false
  writeBackSrc : Bool := false
  wrl : Bool := false
  wrh : Bool := false
  wben : Bool := false
  leftUnused : Bool := false
  rightUnused : Bool := false
deriving DecidableEq, Repr

/-- The control word of a row: each signal at its bit (40_decoder.md R142), the most significant first. -/
def Signals.pack (g : Signals) : Ctl :=
  BitVec.ofBool g.rightUnused ++ BitVec.ofBool g.leftUnused ++ BitVec.ofBool g.wben ++ BitVec.ofBool g.wrh
    ++ BitVec.ofBool g.wrl ++ BitVec.ofBool g.writeBackSrc ++ BitVec.ofBool g.assertStoreOp
    ++ BitVec.ofBool g.memStore ++ BitVec.ofBool g.memLoad ++ BitVec.ofBool g.jabs ++ BitVec.ofBool g.j
    ++ g.rs ++ g.i ++ BitVec.ofBool g.c0 ++ BitVec.ofBool g.fi ++ g.selRightOp ++ g.selStoreOp
    ++ BitVec.ofBool g.hlt

/-- The row of an opcode that leaves the ALU idle and reads no register (40_decoder.md R166). -/
def idleRow : Signals := { leftUnused := true, rightUnused := true }

/-- The row of a register-register ALU instruction that writes its result: function `i`, carry-in `c0`
(40_decoder.md R167). -/
def registerRow (i : BitVec 3) (c0 : Bool) : Signals :=
  { i := i, rs := 3, fi := true, c0 := c0, wrl := true, wrh := true, wben := true }

/-- The row of a register-immediate ALU instruction that writes its result (40_decoder.md R167). -/
def immediateRow (i : BitVec 3) (c0 : Bool) : Signals :=
  { registerRow i c0 with selRightOp := 1, rightUnused := true }

/-- The signals of every opcode under the flags `f` (40_decoder.md R167, R168, R169; reserved opcodes, R176). -/
def signalsOf (f : Flags) (op : Nat) : Signals :=
  match op with
  | 0 => idleRow
  | 1 => { idleRow with hlt := true }
  | 2 => { i := 3, rs := 3, selRightOp := 1, memLoad := true, writeBackSrc := true, wrl := true, wrh := true,
           wben := true, rightUnused := true }
  | 3 => { i := 3, rs := 3, selRightOp := 2, memStore := true, assertStoreOp := true }
  | 4 => { idleRow with selStoreOp := 2, assertStoreOp := true, writeBackSrc := true, wrl := true, wrh := true,
                        wben := true }
  | 5 => { idleRow with selStoreOp := 3, assertStoreOp := true, writeBackSrc := true, wrh := true, wben := true }
  | 6 => { i := 2, rs := 3, fi := true, c0 := true }
  | 7 => registerRow 3 false
  | 8 => registerRow 2 true
  | 9 => registerRow 6 false
  | 10 => registerRow 5 false
  | 11 => registerRow 4 false
  | 12 => { i := 1, rs := 1, fi := true, wrl := true, wrh := true, wben := true, rightUnused := true }
  | 13 => { i := 2, rs := 3, selRightOp := 1, fi := true, c0 := true, rightUnused := true }
  | 14 => immediateRow 3 false
  | 15 => immediateRow 2 true
  | 16 => immediateRow 6 false
  | 17 => immediateRow 5 false
  | 18 => immediateRow 4 false
  | 19 => idleRow
  | 20 => { idleRow with j := true }
  | 21 => { i := 3, rs := 3, j := true, jabs := true }
  | 22 => { i := 3, rs := 3, selStoreOp := 1, j := true, jabs := true, assertStoreOp := true, writeBackSrc := true,
            wrl := true, wrh := true, wben := true }
  | 23 => idleRow
  | 24 | 25 | 26 | 27 | 28 | 29 => { idleRow with j := branchTaken op f }
  | 30 => registerRow 3 f.c
  | 31 => registerRow 2 f.c
  | _ => idleRow

/-- The control word of an opcode under the flags `f`: what "a straightforward per-opcode table generator" puts into
the table (40_decoder.md R171). -/
def controlWord (f : Flags) (op : Opcode) : Ctl := (signalsOf f op.toNat).pack

/-- The table: 512 control words, computed once, by index (40_decoder.md R171). -/
def decoderTable : Vector Ctl 512 :=
  Vector.ofFn fun k => controlWord (indexFlags (BitVec.ofNat 9 k)) (indexOpcode (BitVec.ofNat 9 k))

/-- `decode(index) = TABLE[index mod 512]` (40_decoder.md R140, R171). -/
def lookup (index : BitVec 9) : Ctl := decoderTable[index.toNat]

/-- The interface form of a decoder, `decode(index: u32) -> u32`, through which both implementations are queried: index bits
above bit 8 are ignored, bits 31 to 23 of the answer are 0 (40_decoder.md R140, R142). -/
def queryU32 (implementation : BitVec 9 → Ctl) (index : BitVec 32) : BitVec 32 :=
  (implementation (index.extractLsb' 0 9)).setWidth 32

/-- `decode(index: u32) -> u32` of the reference table (40_decoder.md R140, R171). -/
def decodeU32 (index : BitVec 32) : BitVec 32 := queryU32 lookup index

/-! ## The gate-level form (40_decoder.md R172, R173) -/

/-- The 23 sums of products over the nine index bits, in the order of the control word's bits (40_decoder.md R173). -/
def pldOutputs (o4 o3 o2 o1 o0 n c z v : Bool) : List Bool :=
  [ -- HLT
    (!o4 && !o3 && !o2 && !o1 && o0),
    -- SelStoreOpA
    (!o4 && !o3 && o2 && !o1 && o0) || (o4 && !o3 && o2 && o1 && !o0),
    -- SelStoreOpB
    (!o4 && !o3 && o2 && !o1),
    -- SelRightOpA
    (!o3 && !o2 && o1 && !o0) || (!o4 && o3 && o2 && o0) || (!o4 && o3 && o2 && o1) || (o4 && !o3 && !o2 && !o1),
    -- SelRightOpB
    (!o4 && !o3 && !o2 && o1 && o0),
    -- FI
    (!o4 && o2 && o1) || (!o4 && o3) || (o3 && o2 && o1) || (o4 && !o3 && !o2 && !o0) || (o4 && !o3 && !o2 && !o1),
    -- C0
    (!o4 && !o3 && o2 && o1 && !o0) || (!o4 && o3 && !o2 && !o1 && !o0) || (!o4 && o3 && o2 && o0)
      || (o4 && o3 && o2 && o1 && c),
    -- I0
    (!o4 && !o2 && o1 && !o0) || (!o4 && !o3 && o1 && o0) || (!o4 && o3 && o2 && !o0) || (o4 && !o3 && !o1 && o0)
      || (o4 && o2 && o1 && !o0),
    -- I1
    (!o4 && !o3 && o1) || (!o4 && o3 && !o1 && o0) || (!o4 && o3 && !o2 && !o1) || (o2 && o1 && !o0)
      || (o3 && o2 && o1) || (o4 && !o3 && !o2 && !o1 && !o0) || (o4 && !o3 && o2 && !o1 && o0),
    -- I2
    (!o4 && o3 && !o2 && o0) || (!o4 && o3 && !o2 && o1) || (o4 && !o3 && !o2 && !o0) || (o4 && !o3 && !o2 && !o1),
    -- RS0
    (!o3 && o1 && !o0) || (!o4 && o1) || (!o4 && o3) || (o3 && o2 && o1) || (o4 && !o3 && !o1 && o0)
      || (o4 && !o3 && !o2 && !o0),
    -- RS1
    (!o3 && o1 && !o0) || (!o4 && o1) || (!o4 && o3 && !o2) || (!o4 && o3 && o0) || (o3 && o2 && o1)
      || (o4 && !o3 && !o1 && o0) || (o4 && !o3 && !o2 && !o0),
    -- J
    (o4 && !o3 && o2 && !o0) || (o4 && !o3 && o2 && !o1) || (o4 && o2 && !o1 && !o0 && !c)
      || (o4 && o2 && !o1 && o0 && c && !z) || (o4 && o3 && !o2 && !o1 && !o0 && z)
      || (o4 && o3 && !o2 && !o1 && o0 && !z) || (o4 && o3 && !o2 && o0 && !n && !z && !v)
      || (o4 && o3 && !o2 && o0 && n && !z && v) || (o4 && o3 && !o2 && o1 && !o0 && !n && v)
      || (o4 && o3 && !o2 && o1 && !o0 && n && !v),
    -- JABS
    (o4 && !o3 && o2 && !o1 && o0) || (o4 && !o3 && o2 && o1 && !o0),
    -- MemLoad
    (!o4 && !o3 && !o2 && o1 && !o0),
    -- MemStore
    (!o4 && !o3 && !o2 && o1 && o0),
    -- AssertStoreOp
    (!o4 && !o3 && !o2 && o1 && o0) || (!o4 && !o3 && o2 && !o1) || (o4 && !o3 && o2 && o1 && !o0),
    -- WriteBackSrcFlag
    (!o4 && !o3 && !o2 && o1 && !o0) || (!o4 && !o3 && o2 && !o1) || (o4 && !o3 && o2 && o1 && !o0),
    -- WRL
    (!o3 && !o2 && o1 && !o0) || (!o4 && o2 && !o1 && !o0) || (!o4 && o2 && o1 && o0) || (!o4 && o3 && !o2)
      || (o3 && o2 && o1) || (o4 && !o3 && !o2 && !o1) || (o4 && !o3 && o1 && !o0),
    -- WRH
    (!o3 && !o2 && o1 && !o0) || (!o4 && !o3 && o2 && o0) || (!o4 && o2 && !o1 && !o0) || (!o4 && o3 && !o2)
      || (o3 && o2 && o1) || (o4 && !o3 && !o2 && !o1) || (o4 && !o3 && o1 && !o0),
    -- WBEN
    (!o3 && !o2 && o1 && !o0) || (!o4 && !o3 && o2 && o0) || (!o4 && o2 && !o1 && !o0) || (!o4 && o3 && !o2)
      || (o3 && o2 && o1) || (o4 && !o3 && !o2 && !o1) || (o4 && !o3 && o1 && !o0),
    -- LeftOperandIsUnused
    (!o3 && o2 && !o1 && !o0) || (!o4 && !o3 && !o1) || (o4 && !o3 && o1 && o0) || (o4 && o3 && !o1)
      || (o4 && o3 && !o2),
    -- RightOperandIsUnused
    (!o3 && !o1 && !o0) || (!o3 && !o2 && !o0) || (!o4 && !o3 && !o1) || (!o4 && o3 && o2) || (o3 && o2 && !o1)
      || (o4 && !o2) || (o4 && !o3 && o1 && o0) ]

/-- The outputs as one word, bit b the b-th equation (40_decoder.md R173). -/
def packOutputs : List Bool → Nat
  | [] => 0
  | b :: rest => b.toNat + 2 * packOutputs rest

/-- `PLD(index)` (40_decoder.md R173); `o4` is `index[4]`, N is `index[8]`, V is `index[5]` (R172). -/
def pld (index : BitVec 9) : Ctl :=
  BitVec.ofNat 23 (packOutputs (pldOutputs (index.getLsbD 4) (index.getLsbD 3) (index.getLsbD 2) (index.getLsbD 1)
    (index.getLsbD 0) (index.getLsbD 8) (index.getLsbD 7) (index.getLsbD 6) (index.getLsbD 5)))

/-- `decode(index: u32) -> u32` of the gate-level form (40_decoder.md R140, R173). -/
def pldU32 (index : BitVec 32) : BitVec 32 := queryU32 pld index

end Sys2Proof.Machine
end

