-- ==== Sys2Proof/Machine/Flags.lean ====
section
/-! DEFINITION. Every flag computation: the flags the EX stage writes from the ALU (43_pipeline.md R265), the flags of
each kind of ALU instruction as program order sees them (44_alu_instructions.md R317), and the predicates of the
conditional branches (40_decoder.md R168). -/

namespace Sys2Proof.Machine

/-- `flags(F, C16, Zo, OVF)`: N is bit 15 of the result, C the carry out, Z the zero output, V the overflow
(10_state.md R32, 44_alu_instructions.md R300). -/
def flagsOfResult (f : Word) (c16 zo ovf : Bool) : Flags := { n := f.getLsbD 15, c := c16, z := zo, v := ovf }

/-- The flags after EX: written when FI is asserted, kept otherwise (43_pipeline.md R265). -/
def exFlags (w : Ctl) (y : Word) (r : AluResult) (before : Flags) : Flags :=
  if w.fi then flagsOfResult y r.c16 r.zero r.ovf else before

/-- Whether an exact signed value is outside -32768 to 32767 (41_alu.md R206, 44_alu_instructions.md R317). -/
def outsideSigned (v : Int) : Bool := decide (v < -32768) || decide (32767 < v)

/-- The flags of `A + B + c` (44_alu_instructions.md R317, first row). -/
def flagsOfSum (a b : Word) (c : Bool) : Flags :=
  let f := a + b + BitVec.ofNat 16 c.toNat
  { n := f.getLsbD 15
    c := decide (2 ^ 16 ≤ a.toNat + b.toNat + c.toNat)
    z := f == 0
    v := outsideSigned (a.toInt + b.toInt + c.toNat) }

/-- The flags of `A - B` (44_alu_instructions.md R317, second row): C is 1 when no borrow occurs. -/
def flagsOfDifference (a b : Word) : Flags :=
  { n := (a - b).getLsbD 15
    c := decide (b.toNat ≤ a.toNat)
    z := a - b == 0
    v := outsideSigned (a.toInt - b.toInt) }

/-- The flags of `A - B - 1 + c` (44_alu_instructions.md R317, third row). -/
def flagsOfBorrow (a b : Word) (c : Bool) : Flags :=
  let f := a - b - 1 + BitVec.ofNat 16 c.toNat
  { n := f.getLsbD 15
    c := decide (2 ^ 16 ≤ a.toNat + (0xFFFF - b.toNat) + c.toNat)
    z := f == 0
    v := outsideSigned (a.toInt - b.toInt - 1 + c.toNat) }

/-- The flags of a logic instruction (44_alu_instructions.md R317, last row): C and V are cleared. -/
def flagsOfLogic (f : Word) : Flags := { n := f.getLsbD 15, c := false, z := f == 0, v := false }

/-- BEQ: Z = 1 (40_decoder.md R168). -/
def Flags.equal (f : Flags) : Bool := f.z
/-- BNE: Z = 0 (R168). -/
def Flags.notEqual (f : Flags) : Bool := !f.z
/-- BLT: N ≠ V (R168). -/
def Flags.lessSigned (f : Flags) : Bool := f.n != f.v
/-- BGT: Z = 0 and N = V (R168). -/
def Flags.greaterSigned (f : Flags) : Bool := !f.z && f.n == f.v
/-- BLTU: C = 0 (R168). -/
def Flags.lowerUnsigned (f : Flags) : Bool := !f.c
/-- BGTU: C = 1 and Z = 0 (R168). -/
def Flags.higherUnsigned (f : Flags) : Bool := f.c && !f.z

/-- The control word of a conditional branch: the relative-jump word if taken, else the NOP word
(40_decoder.md R166, R168). -/
def branchWord (taken : Bool) : Ctl := if taken then jumpWord else nopWord

end Sys2Proof.Machine
end

