-- ==== Sys2Proof/Machine/Operands.lean ====
section
/-! DEFINITION. The operand forms: immediate assembly (30_encoding.md R104) and the two selections the ID stage makes
by the control word (40_decoder.md R149, R150). There is one addressing mode, base register plus sign-extended 5-bit
offset modulo 2^16 (45_memory_and_immediate_instructions.md R345), which the ALU adds. -/

namespace Sys2Proof.Machine

/-- `sext_N`: sign extension to 16 bits (00_scope.md R14). -/
def sext (n : Nat) (v : BitVec n) : Word := v.signExtend 16

/-- `I5 = sext_5(ins[4:0])` (30_encoding.md R104). -/
def immI5 (ins : Word) : Word := sext 5 (fieldImm5 ins)

/-- `S5 = sext_5({ins[10:8], ins[1:0]})` (30_encoding.md R104). -/
def immS5 (ins : Word) : Word := sext 5 (fieldSimm ins)

/-- `K8 = sext_8(ins[7:0])` (30_encoding.md R104). -/
def immK8 (ins : Word) : Word := sext 8 (fieldImm8 ins)

/-- `U8 = {ins[7:0], 0x00}` (30_encoding.md R104). -/
def immU8 (ins : Word) : Word := fieldImm8 ins ++ 0#8

/-- `D10 = sext_10(ins[9:0])` (30_encoding.md R104). -/
def immD10 (ins : Word) : Word := sext 10 (fieldOff10 ins)

/-- The right ALU operand by SelRightOp, from the port B value (40_decoder.md R149). -/
def rightOperand (sel : BitVec 2) (ins portB : Word) : Word :=
  match sel.toNat with
  | 0 => portB
  | 1 => immI5 ins
  | 2 => immS5 ins
  | _ => 0

/-- The store operand by SelStoreOp, from the port B value and the fetch PC (40_decoder.md R150). -/
def storeOperand (sel : BitVec 2) (ins portB pc : Word) : Word :=
  match sel.toNat with
  | 0 => portB
  | 1 => pc
  | 2 => immK8 ins
  | _ => immU8 ins

/-- The bytes WB writes: the low one with WRL, the high one with WRH (42_hazard_unit.md R231, 43_pipeline.md R262). -/
def byteMask (w : Ctl) : Word := (if w.wrl then 0x00FF else 0) ||| (if w.wrh then 0xFF00 else 0)

/-- `(new & mask) | (old & ~mask)`: the bytes of `new` the control word writes, the others of `old`
(43_pipeline.md R262, 42_hazard_unit.md R239). -/
def mergeBytes (w : Ctl) (new old : Word) : Word := (new &&& byteMask w) ||| (old &&& ~~~byteMask w)

end Sys2Proof.Machine
end

