-- ==== Sys2Proof/Machine/Hazard.lean ====
section
/-! DEFINITION. The hazard detection and forwarding unit (42_hazard_unit.md): a pure function of the instruction in ID
and the descriptors of the instructions in EX and MEM. -/

namespace Sys2Proof.Machine

/-- Where a port takes its value from (42_hazard_unit.md R230). -/
inductive ForwardSel where
  /-- The register file. -/
  | none
  /-- The ALU result of this step's EX phase. -/
  | fromEx
  /-- The MEM value of this step. -/
  | fromMem
deriving DecidableEq, Repr

/-- A producer in flight: its control word, destination and result value (42_hazard_unit.md R230, R231). -/
structure Producer where
  ctl : Ctl
  selC : RegIdx
  value : Word
deriving DecidableEq, Repr

/-- An in-flight instruction writes register `s` (42_hazard_unit.md R231). -/
def writesReg (w : Ctl) (selC s : RegIdx) : Bool := w.wben && (w.wrl || w.wrh) && selC == s

/-- The selection and the stall of one port (42_hazard_unit.md R232 to R236): an unused port does neither; a match in
EX forwards an ALU result and stalls on a store operand; only without a match in EX is MEM asked, and it forwards. -/
def portSelect (unused : Bool) (s : RegIdx) (exCtl : Ctl) (exSel : RegIdx) (memCtl : Ctl) (memSel : RegIdx) :
    ForwardSel × Bool :=
  if unused then (.none, false)
  else if writesReg exCtl exSel s then (if exCtl.writeBackSrc then (.none, true) else (.fromEx, false))
  else if writesReg memCtl memSel s then (.fromMem, false)
  else (.none, false)

/-- The instruction reads the flags: opcodes 24 to 31 (42_hazard_unit.md R237). -/
def readsFlags (ins : Word) : Bool := decide (24 ≤ (opcodeOf ins).toNat)

/-- The flag stall (42_hazard_unit.md R237). -/
def flagStall (ins : Word) (exCtl : Ctl) : Bool := readsFlags ins && exCtl.fi

/-- The value of a port (42_hazard_unit.md R239): a forwarded value replaces only the bytes its producer writes. -/
def portValue (sel : ForwardSel) (rfValue : Word) (ex mem : Producer) : Word :=
  match sel with
  | .none => rfValue
  | .fromEx => mergeBytes ex.ctl ex.value rfValue
  | .fromMem => mergeBytes mem.ctl mem.value rfValue

/-- What the unit answers (42_hazard_unit.md R240, R242). -/
structure HazardOut where
  stall : Bool
  selA : ForwardSel
  selB : ForwardSel
  vA : Word
  vB : Word
deriving DecidableEq, Repr

/-- The stall output alone, which needs no value in flight (43_pipeline.md R275). -/
def hazardStall (ins : Word) (dctl exCtl : Ctl) (exSel : RegIdx) (memCtl : Ctl) (memSel : RegIdx) : Bool :=
  (portSelect dctl.leftUnused (fieldA ins) exCtl exSel memCtl memSel).2
    || (portSelect dctl.rightUnused (fieldB ins) exCtl exSel memCtl memSel).2
    || flagStall ins exCtl

/-- The whole unit (42_hazard_unit.md R242); `rfA` and `rfB` are the register file's values of ports A and B after this
step's WB write (R230). -/
def hazard (ins : Word) (dctl : Ctl) (ex mem : Producer) (rfA rfB : Word) : HazardOut :=
  let a := portSelect dctl.leftUnused (fieldA ins) ex.ctl ex.selC mem.ctl mem.selC
  let b := portSelect dctl.rightUnused (fieldB ins) ex.ctl ex.selC mem.ctl mem.selC
  { stall := hazardStall ins dctl ex.ctl ex.selC mem.ctl mem.selC
    selA := a.1
    selB := b.1
    vA := portValue a.1 rfA ex mem
    vB := portValue b.1 rfB ex mem }

end Sys2Proof.Machine
end

