-- ==== Sys2Proof/Machine/State.lean ====
section
/-! DEFINITION. The state of the machine, its value after reset, and the reasons a step or a host call can stop. -/

namespace Sys2Proof.Machine

/-- Why the machine stops with a fault. There is no reason: the core raises no exception, no operand, address or word
causes a trap (60_exceptions.md R400), so no constructor is needed and nobody raises one. Safe. -/
inductive Fault where
deriving DecidableEq, Repr

/-- Why a step or a host call is refused. All but the first are the misuses of the host interface that
60_exceptions.md R411 has a model refuse. -/
inductive Refusal where
  /-- Raised by exec for an instruction that has no meaning yet; no arm of exec is such. Safe. -/
  | notModelled (mnemonic : String)
  /-- Raised by `getRegister` and `setRegister` for an index outside 0 to 7 (60_exceptions.md R411). Safe: the call is
  rejected and changes nothing. -/
  | registerIndexOutOfRange (i : Nat)
  /-- Raised by `setRegister` for a value outside 0 to 0xFFFF (60_exceptions.md R411). Safe: the call is rejected and
  changes nothing. -/
  | registerValueOutOfRange (v : Nat)
  /-- Raised by a step whose MEM phase calls `load` and whose host answers outside 0 to 0xFFFF (60_exceptions.md R411).
  Safe: the step is refused whole. -/
  | loadAnswerOutOfRange (v : Nat)
deriving DecidableEq, Repr

/-- The state of the core (10_state.md R30, R32, R33, R35, R36, R38, R39) and, last, what belongs to its host (R40):
the instruction memory and the data space. -/
structure State where
  /-- r0 to r7 (10_state.md R30). -/
  regs : Regs
  /-- N, C, Z, V (10_state.md R32). -/
  flags : Flags
  /-- The address the IF stage fetches from (10_state.md R35). -/
  pc : Word
  /-- IF/ID (10_state.md R36). -/
  ifid : IfId
  /-- ID/EX (10_state.md R36). -/
  idex : IdEx
  /-- EX/MEM (10_state.md R36). -/
  exmem : ExMem
  /-- MEM/WB (10_state.md R36). -/
  memwb : MemWb
  /-- The reset counter; the core is resetting while it is above 0 (10_state.md R38). -/
  rc : Nat
  /-- The ALU's latches (10_state.md R39). -/
  latches : AluLatches
  /-- The host's instruction array (20_memory.md R70, R71). -/
  imem : Memory
  /-- The host's side of the data space (20_memory.md R70, R75). -/
  data : DataSpace
deriving DecidableEq, Repr

/-- The machine at power-on, which is the state `reset(hard)` gives (70_reset_and_hazards.md R434; values of
10_state.md R43). The host has set no instruction array, given no answer and received no call (log entries 3 to 5). -/
def State.reset : State :=
  { regs := Regs.zero, flags := Flags.clear, pc := 0, ifid := IfId.bubble, idex := IdEx.bubble, exmem := ExMem.bubble,
    memwb := MemWb.bubble, rc := Config.resetCycles, latches := AluLatches.zero, imem := [],
    data := { answers := [], calls := [] } }

end Sys2Proof.Machine
end

