-- ==== Sys2Proof/Machine/Ops.lean ====
section
/-! DEFINITION. The named operations over memory, registers, the data space and the pipeline. Every meaning is one
line over `runningStep`, the running step of 43_pipeline.md R277 with a given instruction in ID. The core raises no
exception (60_exceptions.md R400, R403, R404), so there is no entry and no return to share. -/

namespace Sys2Proof.Machine

/-! ## Registers -/

/-- `x[i]` (10_state.md R30). -/
def Regs.read (r : Regs) (i : RegIdx) : Word := r[i.toNat]'(i.isLt)

/-- `x[i] <- v` (10_state.md R30). -/
def Regs.write (r : Regs) (i : RegIdx) (v : Word) : Regs := r.set i.toNat v i.isLt

/-- The one write port (43_pipeline.md R262): with WBEN, the bytes the control word enables, of the data-path value or
the ALU result. -/
def Regs.writeBack (r : Regs) (w : Ctl) (selC : RegIdx) (y data : Word) : Regs :=
  if w.wben then r.write selC (mergeBytes w (if w.writeBackSrc then data else y) (r.read selC)) else r

/-! ## The instruction memory (20_memory.md R70, R71, R83) -/

/-- What an address that is not listed reads as: 0x0000, the NOP word (20_memory.md R71). -/
def unlistedWord : Word := 0

/-- The word at an address (20_memory.md R71). -/
def Memory.read (m : Memory) (a : Word) : Word :=
  match m with
  | [] => unlistedWord
  | (k, v) :: rest => if k = a.toNat then v else Memory.read rest a

/-- The memory with one word changed, in canonical form: writing what an unlisted address reads as removes the entry.
Only the host writes instruction memory (20_memory.md R83). -/
def Memory.write (m : Memory) (a v : Word) : Memory :=
  match m with
  | [] => if v = unlistedWord then [] else [(a.toNat, v)]
  | (k, u) :: rest =>
    if a.toNat < k then (if v = unlistedWord then (k, u) :: rest else (a.toNat, v) :: (k, u) :: rest)
    else if a.toNat = k then (if v = unlistedWord then rest else (k, v) :: rest)
    else (k, u) :: Memory.write rest a v

/-- Whether every listed address is at least `low` and below 2^16, addresses strictly rise, and no entry equals what an
unlisted address reads as. -/
def Memory.wfFrom (low : Nat) : Memory → Bool
  | [] => true
  | (k, v) :: rest => decide (low ≤ k) && decide (k < 2 ^ 16) && v != unlistedWord && Memory.wfFrom (k + 1) rest

/-- The canonical form, in which equal memories are equal lists. -/
def Memory.wf (m : Memory) : Bool := Memory.wfFrom 0 m

/-- The listed words of an array that starts at address `k`; words beyond the 65536 addresses of the PC are never
fetched and are left out (20_memory.md R71). -/
def Memory.ofWordsFrom (k : Nat) : List Word → Memory
  | [] => []
  | v :: rest =>
    if k < 2 ^ 16 then
      (if v = unlistedWord then Memory.ofWordsFrom (k + 1) rest else (k, v) :: Memory.ofWordsFrom (k + 1) rest)
    else []

/-- The instruction memory of a host's array `instructions` (20_memory.md R70, R71). -/
def Memory.ofWords (ws : List Word) : Memory := Memory.ofWordsFrom 0 ws

/-! ## The data space (20_memory.md R75 to R77) -/

/-- The answer to the next call `load(a)`: the host's next answer if one is given, else a free value (20_memory.md R77).
An answer outside 16 bits is refused before it is used (`State.refusedAnswer`). -/
def DataSpace.answer (d : DataSpace) (a : Word) : Word :=
  match d.answers with
  | [] => Config.loadAnswer d.calls a
  | n :: _ => BitVec.ofNat 16 n

/-- `MemRead(a, 16)`: one call of `load(a)` (00_scope.md R16, 20_memory.md R75). -/
def DataSpace.load (d : DataSpace) (a : Word) : Word × DataSpace :=
  (d.answer a, { answers := d.answers.tail, calls := d.calls ++ [.load a (d.answer a)] })

/-- `MemWrite(a, 16, v)`: one call of `store(v, a)` (00_scope.md R16, 20_memory.md R75). -/
def DataSpace.store (d : DataSpace) (a v : Word) : DataSpace := { d with calls := d.calls ++ [.store v a] }

/-- The memory access of the MEM phase for an instruction with control word `w`, ALU result `y` and store operand `op`:
the data-path value and the data space after it (43_pipeline.md R263). -/
def memAccess (w : Ctl) (y op : Word) (d : DataSpace) : Word × DataSpace :=
  let r := if w.memLoad then d.load y else (if w.assertStoreOp then op else 0, d)
  (r.1, if w.memStore then r.2.store y op else r.2)

/-! ## Derived status (10_state.md R41) -/

/-- `is_resetting = (rc > 0)`. -/
def State.isResetting (s : State) : Bool := decide (0 < s.rc)

/-- `is_halted = (rc = 0) and EXMEM.ctl.HLT` (43_pipeline.md R274). -/
def State.isHalted (s : State) : Bool := s.rc == 0 && s.exmem.ctl.hlt

/-! ## The phases of a running step (43_pipeline.md R261 to R269), each of the state at the start of the step -/

/-- WB: the register file after this step's write (43_pipeline.md R262). -/
def State.wbRegs (s : State) : Regs := s.regs.writeBack s.memwb.ctl s.memwb.selC s.memwb.y s.memwb.data

/-- MEM: the data-path value and the data space after the callback (43_pipeline.md R263). -/
def State.memPhase (s : State) : Word × DataSpace := memAccess s.exmem.ctl s.exmem.y s.exmem.storeOp s.data

/-- MEM: the value the instruction in MEM will write (42_hazard_unit.md R231). -/
def State.memValue (s : State) : Word := if s.exmem.ctl.writeBackSrc then s.memPhase.1 else s.exmem.y

/-- MEM: the host's answer that this step's `load` call would have to refuse, being outside 16 bits
(60_exceptions.md R411); none otherwise. -/
def State.refusedAnswer (s : State) : Option Nat :=
  if s.exmem.ctl.memLoad then s.data.answers.head?.filter (fun n => decide (2 ^ 16 ≤ n)) else none

/-- EX: the ALU, with all latch controls asserted (41_alu.md R213, 43_pipeline.md R264). -/
def State.exAlu (s : State) : AluResult :=
  alu s.idex.left s.idex.right s.idex.ctl.c0 s.idex.ctl.i s.idex.ctl.rs AluLines.flowThrough s.latches

/-- EX: the ALU result `y`, always a value (41_alu.md R213). -/
def State.exY (s : State) : Word := s.exAlu.f.getD Config.tristated

/-- EX: the flags at the end of the step (43_pipeline.md R265). -/
def State.exFlags (s : State) : Flags := Machine.exFlags s.idex.ctl s.exY s.exAlu s.flags

/-- EX: the jump target (43_pipeline.md R266). -/
def State.jumpTarget (s : State) : Word := if s.idex.ctl.jabs then s.exY else s.pc + s.idex.off

/-- The descriptor of the instruction in EX (42_hazard_unit.md R230). -/
def State.exProducer (s : State) : Producer := { ctl := s.idex.ctl, selC := s.idex.selC, value := s.exY }

/-- The descriptor of the instruction in MEM (42_hazard_unit.md R230, R231). -/
def State.memProducer (s : State) : Producer := { ctl := s.exmem.ctl, selC := s.exmem.selC, value := s.memValue }

/-- ID: the hazard unit for an instruction word and its control word (43_pipeline.md R268). -/
def State.hazardOf (s : State) (ins : Word) (dctl : Ctl) : HazardOut :=
  hazard ins dctl s.exProducer s.memProducer (s.wbRegs.read (fieldA ins)) (s.wbRegs.read (fieldB ins))

/-- ID: the candidate content of ID/EX (43_pipeline.md R268). -/
def State.idContent (s : State) (ins : Word) (dctl : Ctl) : IdEx :=
  let h := s.hazardOf ins dctl
  { ctl := dctl
    left := h.vA
    right := rightOperand dctl.selRightOp ins h.vB
    storeOp := storeOperand dctl.selStoreOp ins h.vB s.pc
    selC := fieldC ins
    off := immD10 ins }

/-- `Fetch(a)` (20_memory.md R71). -/
def State.fetch (s : State) (a : Word) : Word := s.imem.read a

/-- The instruction in ID (43_pipeline.md R267). -/
def State.instrInId (s : State) : Instr := decode s.ifid.ins

/-! ## Latching the step (43_pipeline.md R270 to R273) -/

/-- What every running step latches, whatever becomes of the instruction in ID: the register write, the callbacks, the
flags, the ALU latches, and the instructions in EX and MEM advanced (43_pipeline.md R262 to R265, R270). -/
def State.retire (s : State) : State :=
  { s with
    regs := s.wbRegs
    data := s.memPhase.2
    flags := s.exFlags
    latches := s.exAlu.latches
    memwb := { ctl := s.exmem.ctl, y := s.exmem.y, data := s.memPhase.1, selC := s.exmem.selC }
    exmem := { ctl := s.idex.ctl, y := s.exY, storeOp := s.idex.storeOp, selC := s.idex.selC } }

/-- Normal: the instruction enters EX, the fetched word enters ID (43_pipeline.md R269, R271). -/
def State.latchNormal (s : State) (content : IdEx) : State :=
  { s.retire with idex := content, ifid := { ins := s.fetch s.pc }, pc := s.pc + 1 }

/-- Stall: a bubble enters EX; the PC and the instruction in ID are held, the fetched word is discarded
(43_pipeline.md R272). -/
def State.latchStall (s : State) : State := { s.retire with idex := IdEx.bubble }

/-- Flush: the PC takes the target and both younger slots become bubbles (43_pipeline.md R273). -/
def State.latchFlush (s : State) : State :=
  { s.retire with idex := IdEx.bubble, ifid := IfId.bubble, pc := s.jumpTarget }

/-- The state after a running step with word `ins` and control word `dctl` in ID: flush over stall over normal
(43_pipeline.md R270). -/
def State.advance (s : State) (ins : Word) (dctl : Ctl) : State :=
  if s.idex.ctl.j then s.latchFlush
  else if (s.hazardOf ins dctl).stall then s.latchStall
  else s.latchNormal (s.idContent ins dctl)

/-- The running step with an instruction in ID, given by its word and its control word (43_pipeline.md R277). It is
refused, whole, only where the host answers a `load` outside 16 bits (60_exceptions.md R411; log entry 7). -/
def runningStep (ins : Word) (dctl : Ctl) (s : State) : Host.Outcome State Fault Refusal :=
  match s.refusedAnswer with
  | some n => .refused (.loadAnswerOutOfRange n)
  | none => .next (s.advance ins dctl)

/-- The resetting step: the counter falls by one, the PC is held at 0 and every boundary register is a bubble; nothing
else happens (70_reset_and_hazards.md R432). -/
def State.resettingStep (s : State) : State :=
  { s with rc := s.rc - 1, pc := 0, ifid := IfId.bubble, idex := IdEx.bubble, exmem := ExMem.bubble,
           memwb := MemWb.bubble }

end Sys2Proof.Machine
end

