-- ==== Sys2Proof/Machine/CarryAlu.lean ====
section
/-! DEFINITION. The carry instructions ADC and SBC (44_alu_instructions.md R314, R315), whose control word takes C0
from the C flag at the start of the step (40_decoder.md R169, 43_pipeline.md R267).
A meaning is the running step with its instruction in ID (43_pipeline.md R277): it puts the instruction's control word
(40_decoder.md R167) and operands into the pipeline, while the older instructions do their EX, MEM and WB. What the
word makes the later phases do is in Machine/Ops.lean; the effect in program order is in Machine/ProgramOrder.lean. -/

namespace Sys2Proof.Machine

/-- ADC (44_alu_instructions.md R314): `x[C] <- x[A] + x[B] + C`, flags. I = 3, RS = 3, C0 = the C flag (40_decoder.md R169), FI,
WRL, WRH, WBEN. -/
def execAdc (c a b : RegIdx) (ign : BitVec 2) (s : State) : Host.Outcome State Fault Refusal :=
  runningStep (encode (.adc c a b ign)) (if s.flags.c then 0x1C0DE0#23 else 0x1C0DA0#23) s

/-- SBC (R315): `x[C] <- x[A] + ~x[B] + C`, flags. I = 2, RS = 3, C0 = the C flag (40_decoder.md R169), FI, WRL, WRH,
WBEN. -/
def execSbc (c a b : RegIdx) (ign : BitVec 2) (s : State) : Host.Outcome State Fault Refusal :=
  runningStep (encode (.sbc c a b ign)) (if s.flags.c then 0x1C0D60#23 else 0x1C0D20#23) s

end Sys2Proof.Machine
end

