-- ==== Sys2Proof/Machine/Control.lean ====
section
/-! DEFINITION. NOP, HLT, the reserved opcodes, the jumps and the conditional branches (46_control_instructions.md
R370 to R381). A branch reads the flags at the start of the step (43_pipeline.md R267).
A meaning is the running step with its instruction in ID (43_pipeline.md R277): it puts the instruction's control word
(40_decoder.md R167) and operands into the pipeline, while the older instructions do their EX, MEM and WB. What the
word makes the later phases do is in Machine/Ops.lean; the effect in program order is in Machine/ProgramOrder.lean. -/

namespace Sys2Proof.Machine

/-- NOP (46_control_instructions.md R370): no effect but the advance of the pipeline. NOPW. -/
def execNop (ign : BitVec 11) (s : State) : Host.Outcome State Fault Refusal :=
  runningStep (encode (.nop ign)) nopWord s

/-- HLT (R371): the core is halted at the end of the step in which HLT is in EX (43_pipeline.md R274); that needs the HLT
signal, which `State.isHalted` reads one boundary on. HLT, both operands unused. -/
def execHlt (ign : BitVec 11) (s : State) : Host.Outcome State Fault Refusal :=
  runningStep (encode (.hlt ign)) 0x600001#23 s

/-- Reserved opcode 19 (R381): as NOP. -/
def execRsvd19 (ign : BitVec 11) (s : State) : Host.Outcome State Fault Refusal :=
  runningStep (encode (.rsvd19 ign)) nopWord s

/-- Reserved opcode 23 (R381): as NOP. -/
def execRsvd23 (ign : BitVec 11) (s : State) : Host.Outcome State Fault Refusal :=
  runningStep (encode (.rsvd23 ign)) nopWord s

/-- JMP (R372): `pc <- p + 2 + D10`, when in EX, flushing the next two slots. JMPW. -/
def execJmp (ign : BitVec 1) (off : BitVec 10) (s : State) : Host.Outcome State Fault Refusal :=
  runningStep (encode (.jmp ign off)) jumpWord s

/-- JR (R373): `pc <- x[A] + x[B]`, when in EX, no flag. I = 3, RS = 3, J, JABS. -/
def execJr (ign : BitVec 3) (a b : RegIdx) (ign2 : BitVec 2) (s : State) : Host.Outcome State Fault Refusal :=
  runningStep (encode (.jr ign a b ign2)) 0x003D80#23 s

/-- JALR (R374): `x[C] <- p + 1; pc <- x[A] + x[B]`, no flag. I = 3, RS = 3, SelStoreOp = 1 (the link), J, JABS,
AssertStoreOp, WriteBackSrcFlag, WRL, WRH, WBEN. -/
def execJalr (c a b : RegIdx) (ign : BitVec 2) (s : State) : Host.Outcome State Fault Refusal :=
  runningStep (encode (.jalr c a b ign)) 0x1F3D82#23 s

/-- BEQ (R375): as JMP if Z = 1, else as NOP. -/
def execBeq (ign : BitVec 1) (off : BitVec 10) (s : State) : Host.Outcome State Fault Refusal :=
  runningStep (encode (.beq ign off)) (branchWord s.flags.equal) s

/-- BNE (R376): as JMP if Z = 0, else as NOP. -/
def execBne (ign : BitVec 1) (off : BitVec 10) (s : State) : Host.Outcome State Fault Refusal :=
  runningStep (encode (.bne ign off)) (branchWord s.flags.notEqual) s

/-- BLT (R377): as JMP if N ≠ V, else as NOP. -/
def execBlt (ign : BitVec 1) (off : BitVec 10) (s : State) : Host.Outcome State Fault Refusal :=
  runningStep (encode (.blt ign off)) (branchWord s.flags.lessSigned) s

/-- BGT (R378): as JMP if Z = 0 and N = V, else as NOP. -/
def execBgt (ign : BitVec 1) (off : BitVec 10) (s : State) : Host.Outcome State Fault Refusal :=
  runningStep (encode (.bgt ign off)) (branchWord s.flags.greaterSigned) s

/-- BLTU (R379): as JMP if C = 0, else as NOP. -/
def execBltu (ign : BitVec 1) (off : BitVec 10) (s : State) : Host.Outcome State Fault Refusal :=
  runningStep (encode (.bltu ign off)) (branchWord s.flags.lowerUnsigned) s

/-- BGTU (R380): as JMP if C = 1 and Z = 0, else as NOP. -/
def execBgtu (ign : BitVec 1) (off : BitVec 10) (s : State) : Host.Outcome State Fault Refusal :=
  runningStep (encode (.bgtu ign off)) (branchWord s.flags.higherUnsigned) s

end Sys2Proof.Machine
end

