-- ==== Sys2Proof/Machine/ImmediateAlu.lean ====
section
/-! DEFINITION. The register-immediate ALU instructions: CMPI, ADDI, SUBI, ANDI, ORI, XORI (44_alu_instructions.md
R308 to R313).
A meaning is the running step with its instruction in ID (43_pipeline.md R277): it puts the instruction's control word
(40_decoder.md R167) and operands into the pipeline, while the older instructions do their EX, MEM and WB. What the
word makes the later phases do is in Machine/Ops.lean; the effect in program order is in Machine/ProgramOrder.lean. -/

namespace Sys2Proof.Machine

/-- CMPI (44_alu_instructions.md R308): flags of `x[A] - I5`, no register. I = 2, RS = 3, SelRightOp = 1, C0 = 1, FI,
RightOperandIsUnused. -/
def execCmpi (ign : BitVec 3) (a : RegIdx) (imm : BitVec 5) (s : State) : Host.Outcome State Fault Refusal :=
  runningStep (encode (.cmpi ign a imm)) 0x400D68#23 s

/-- ADDI (R309): `x[C] <- x[A] + I5`, flags. I = 3, RS = 3, SelRightOp = 1, FI, WRL, WRH, WBEN, RightOperandIsUnused. -/
def execAddi (c a : RegIdx) (imm : BitVec 5) (s : State) : Host.Outcome State Fault Refusal :=
  runningStep (encode (.addi c a imm)) 0x5C0DA8#23 s

/-- SUBI (R310): `x[C] <- x[A] - I5`, flags. I = 2, RS = 3, SelRightOp = 1, C0 = 1, FI, WRL, WRH, WBEN,
RightOperandIsUnused. -/
def execSubi (c a : RegIdx) (imm : BitVec 5) (s : State) : Host.Outcome State Fault Refusal :=
  runningStep (encode (.subi c a imm)) 0x5C0D68#23 s

/-- ANDI (R311): `x[C] <- x[A] & I5`, N and Z, C = V = 0. I = 6, RS = 3, SelRightOp = 1, FI, WRL, WRH, WBEN,
RightOperandIsUnused. -/
def execAndi (c a : RegIdx) (imm : BitVec 5) (s : State) : Host.Outcome State Fault Refusal :=
  runningStep (encode (.andi c a imm)) 0x5C0F28#23 s

/-- ORI (R312): `x[C] <- x[A] | I5`, N and Z, C = V = 0. I = 5, RS = 3, SelRightOp = 1, FI, WRL, WRH, WBEN,
RightOperandIsUnused. -/
def execOri (c a : RegIdx) (imm : BitVec 5) (s : State) : Host.Outcome State Fault Refusal :=
  runningStep (encode (.ori c a imm)) 0x5C0EA8#23 s

/-- XORI (R313): `x[C] <- x[A] ^ I5`, N and Z, C = V = 0. I = 4, RS = 3, SelRightOp = 1, FI, WRL, WRH, WBEN,
RightOperandIsUnused. -/
def execXori (c a : RegIdx) (imm : BitVec 5) (s : State) : Host.Outcome State Fault Refusal :=
  runningStep (encode (.xori c a imm)) 0x5C0E28#23 s

end Sys2Proof.Machine
end

