-- ==== Sys2Proof/Machine/MemoryImmediate.lean ====
section
/-! DEFINITION. LOAD, STORE, LI, LUI (45_memory_and_immediate_instructions.md R340 to R343).
A meaning is the running step with its instruction in ID (43_pipeline.md R277): it puts the instruction's control word
(40_decoder.md R167) and operands into the pipeline, while the older instructions do their EX, MEM and WB. What the
word makes the later phases do is in Machine/Ops.lean; the effect in program order is in Machine/ProgramOrder.lean. -/

namespace Sys2Proof.Machine

/-- LOAD (45_memory_and_immediate_instructions.md R340): `x[C] <- load(x[A] + I5)`, one call, no flag. I = 3, RS = 3,
SelRightOp = 1, MemLoad, WriteBackSrcFlag, WRL, WRH, WBEN, RightOperandIsUnused. -/
def execLoad (c a : RegIdx) (imm : BitVec 5) (s : State) : Host.Outcome State Fault Refusal :=
  runningStep (encode (.load c a imm)) 0x5E4D88#23 s

/-- STORE (R341): `store(x[B], x[A] + S5)`, one call, no register, no flag. I = 3, RS = 3, SelRightOp = 2,
SelStoreOp = 0, MemStore, AssertStoreOp. -/
def execStore (b a : RegIdx) (imm : BitVec 5) (s : State) : Host.Outcome State Fault Refusal :=
  runningStep (encode (.store b a imm)) 0x018D90#23 s

/-- LI (R342): `x[C] <- sext_8(imm8)`, no flag. SelStoreOp = 2, AssertStoreOp, WriteBackSrcFlag, WRL, WRH, WBEN, both
operands unused. -/
def execLi (c : RegIdx) (imm : BitVec 8) (s : State) : Host.Outcome State Fault Refusal :=
  runningStep (encode (.li c imm)) 0x7F0004#23 s

/-- LUI (R343): the high byte of `x[C]` becomes imm8, the low byte is kept, no flag. SelStoreOp = 3, AssertStoreOp,
WriteBackSrcFlag, WRH, WBEN, both operands unused. -/
def execLui (c : RegIdx) (imm : BitVec 8) (s : State) : Host.Outcome State Fault Refusal :=
  runningStep (encode (.lui c imm)) 0x7B0006#23 s

end Sys2Proof.Machine
end

