-- ==== Sys2Proof/Machine/RegisterAlu.lean ====
section
/-! DEFINITION. The register-register ALU instructions: CMP, ADD, SUB, AND, OR, XOR, NOT (44_alu_instructions.md
R301 to R307).
A meaning is the running step with its instruction in ID (43_pipeline.md R277): it puts the instruction's control word
(40_decoder.md R167) and operands into the pipeline, while the older instructions do their EX, MEM and WB. What the
word makes the later phases do is in Machine/Ops.lean; the effect in program order is in Machine/ProgramOrder.lean. -/

namespace Sys2Proof.Machine

/-- CMP (44_alu_instructions.md R301): flags of `x[A] - x[B]`, no register. I = 2, RS = 3, C0 = 1, FI. -/
def execCmp (ign : BitVec 3) (a b : RegIdx) (ign2 : BitVec 2) (s : State) : Host.Outcome State Fault Refusal :=
  runningStep (encode (.cmp ign a b ign2)) 0x000D60#23 s

/-- ADD (R302): `x[C] <- x[A] + x[B]`, flags. I = 3, RS = 3, FI, WRL, WRH, WBEN. -/
def execAdd (c a b : RegIdx) (ign : BitVec 2) (s : State) : Host.Outcome State Fault Refusal :=
  runningStep (encode (.add c a b ign)) 0x1C0DA0#23 s

/-- SUB (R303): `x[C] <- x[A] - x[B]`, flags. I = 2, RS = 3, C0 = 1, FI, WRL, WRH, WBEN. -/
def execSub (c a b : RegIdx) (ign : BitVec 2) (s : State) : Host.Outcome State Fault Refusal :=
  runningStep (encode (.sub c a b ign)) 0x1C0D60#23 s

/-- AND (R304): `x[C] <- x[A] & x[B]`, N and Z, C = V = 0. I = 6, RS = 3, FI, WRL, WRH, WBEN. -/
def execAnd (c a b : RegIdx) (ign : BitVec 2) (s : State) : Host.Outcome State Fault Refusal :=
  runningStep (encode (.and c a b ign)) 0x1C0F20#23 s

/-- OR (R305): `x[C] <- x[A] | x[B]`, N and Z, C = V = 0. I = 5, RS = 3, FI, WRL, WRH, WBEN. -/
def execOr (c a b : RegIdx) (ign : BitVec 2) (s : State) : Host.Outcome State Fault Refusal :=
  runningStep (encode (.or c a b ign)) 0x1C0EA0#23 s

/-- XOR (R306): `x[C] <- x[A] ^ x[B]`, N and Z, C = V = 0. I = 4, RS = 3, FI, WRL, WRH, WBEN. -/
def execXor (c a b : RegIdx) (ign : BitVec 2) (s : State) : Host.Outcome State Fault Refusal :=
  runningStep (encode (.xor c a b ign)) 0x1C0E20#23 s

/-- NOT (R307): `x[C] <- ~x[A]`, N and Z, C = V = 0. I = 1, RS = 1, FI, WRL, WRH, WBEN, RightOperandIsUnused. -/
def execNot (c a : RegIdx) (ign : BitVec 5) (s : State) : Host.Outcome State Fault Refusal :=
  runningStep (encode (.not c a ign)) 0x5C04A0#23 s

end Sys2Proof.Machine
end

