-- ==== Sys2Proof/Machine/Dispatch.lean ====
section
/-! DEFINITION. The meaning of each instruction, one arm per row of spec/opcode_table.json. -/

namespace Sys2Proof.Machine

-- The running step with instruction i in ID (43_pipeline.md R260, R277). Log entry 1.
def exec (i : Instr) (s : State) : Host.Outcome State Fault Refusal :=
  match i with
  | .nop ign => Sys2Proof.Machine.execNop ign s
  | .hlt ign => Sys2Proof.Machine.execHlt ign s
  | .load c a imm => Sys2Proof.Machine.execLoad c a imm s
  | .store b a imm => Sys2Proof.Machine.execStore b a imm s
  | .li c imm => Sys2Proof.Machine.execLi c imm s
  | .lui c imm => Sys2Proof.Machine.execLui c imm s
  | .cmp ign a b ign2 => Sys2Proof.Machine.execCmp ign a b ign2 s
  | .add c a b ign => Sys2Proof.Machine.execAdd c a b ign s
  | .sub c a b ign => Sys2Proof.Machine.execSub c a b ign s
  | .and c a b ign => Sys2Proof.Machine.execAnd c a b ign s
  | .or c a b ign => Sys2Proof.Machine.execOr c a b ign s
  | .xor c a b ign => Sys2Proof.Machine.execXor c a b ign s
  | .not c a ign => Sys2Proof.Machine.execNot c a ign s
  | .cmpi ign a imm => Sys2Proof.Machine.execCmpi ign a imm s
  | .addi c a imm => Sys2Proof.Machine.execAddi c a imm s
  | .subi c a imm => Sys2Proof.Machine.execSubi c a imm s
  | .andi c a imm => Sys2Proof.Machine.execAndi c a imm s
  | .ori c a imm => Sys2Proof.Machine.execOri c a imm s
  | .xori c a imm => Sys2Proof.Machine.execXori c a imm s
  | .rsvd19 ign => Sys2Proof.Machine.execRsvd19 ign s
  | .jmp ign off => Sys2Proof.Machine.execJmp ign off s
  | .jr ign a b ign2 => Sys2Proof.Machine.execJr ign a b ign2 s
  | .jalr c a b ign => Sys2Proof.Machine.execJalr c a b ign s
  | .rsvd23 ign => Sys2Proof.Machine.execRsvd23 ign s
  | .beq ign off => Sys2Proof.Machine.execBeq ign off s
  | .bne ign off => Sys2Proof.Machine.execBne ign off s
  | .blt ign off => Sys2Proof.Machine.execBlt ign off s
  | .bgt ign off => Sys2Proof.Machine.execBgt ign off s
  | .bltu ign off => Sys2Proof.Machine.execBltu ign off s
  | .bgtu ign off => Sys2Proof.Machine.execBgtu ign off s
  | .adc c a b ign => Sys2Proof.Machine.execAdc c a b ign s
  | .sbc c a b ign => Sys2Proof.Machine.execSbc c a b ign s

end Sys2Proof.Machine
end

