-- ==== Sys2Proof/Machine/Step.lean ====
section
/-! DEFINITION. One call of `step()`: one clock cycle (43_pipeline.md R260). -/

namespace Sys2Proof.Machine

/-- `step()` does one of three things: a resetting step while the counter is above 0, nothing once halted, else a
running step with the instruction in ID (43_pipeline.md R260, 70_reset_and_hazards.md R432). -/
def step (s : State) : Host.Outcome State Fault Refusal :=
  if s.isResetting then .next s.resettingStep
  else if s.isHalted then .next s
  else exec s.instrInId s

/-- The state in which the very next step runs the instruction whose bits are `w`: the word stands in the instruction
memory at the PC and has gone through IF (it is in ID and the PC is one on, 43_pipeline.md R269, R271, R279); the
warm-up is over; and EX and MEM hold bubbles, so that the instruction is not flushed, held or behind a HLT. The
instruction in WB is left alone. Log entry 10. -/
def State.withFetchWord (s : State) (nbits w : Nat) : State :=
  { s with
    imem := s.imem.write s.pc (BitVec.ofNat 16 (w % 2 ^ nbits))
    ifid := { ins := BitVec.ofNat 16 (w % 2 ^ nbits) }
    pc := s.pc + 1
    idex := IdEx.bubble
    exmem := ExMem.bubble
    rc := 0 }

end Sys2Proof.Machine
end

