-- ==== Sys2Proof/Machine/HostCalls.lean ====
section
/-! DEFINITION. What the host can do and see between steps (60_exceptions.md R408 to R413, 70_reset_and_hazards.md R430,
43_pipeline.md R275, R276). -/

namespace Sys2Proof.Machine

/-- The two kinds of reset (70_reset_and_hazards.md R430). -/
inductive ResetKind where
  | soft
  | hard
deriving DecidableEq, Repr

/-- `reset(kind)`: both kinds set the PC to 0, put a bubble in every boundary register, clear the flags and the ALU
latches and start the warm-up; only the hard one zeroes the registers. No callback, no fetch (70_reset_and_hazards.md R430,
R433). What is the host's stays: its instruction array and its data space. -/
def State.hostReset (s : State) (kind : ResetKind) : State :=
  { s with
    regs := match kind with
      | .soft => s.regs
      | .hard => Regs.zero
    flags := Flags.clear
    pc := 0
    ifid := IfId.bubble
    idex := IdEx.bubble
    exmem := ExMem.bubble
    memwb := MemWb.bubble
    rc := Config.resetCycles
    latches := AluLatches.zero }

/-- `get_register(i)`, refused for an index outside 0 to 7 (60_exceptions.md R408, R411). -/
def State.getRegister (s : State) (i : Nat) : Except Refusal Word :=
  if i < 8 then .ok (s.regs.read (BitVec.ofNat 3 i)) else .error (.registerIndexOutOfRange i)

/-- `set_register(i, v)`, refused for an index outside 0 to 7 or a value outside 16 bits; it changes only the register
file (60_exceptions.md R408, R411). -/
def State.setRegister (s : State) (i v : Nat) : Except Refusal State :=
  if i < 8 then
    if v < 2 ^ 16 then .ok { s with regs := s.regs.write (BitVec.ofNat 3 i) (BitVec.ofNat 16 v) }
    else .error (.registerValueOutOfRange v)
  else .error (.registerIndexOutOfRange i)

/-- The host sets its array `instructions` (20_memory.md R83, 70_reset_and_hazards.md R436): later fetches see it, words
already fetched are kept. -/
def State.setInstructions (s : State) (ws : List Word) : State := { s with imem := Memory.ofWords ws }

/-- The host settles what its `load` callback will answer next (20_memory.md R77). -/
def State.setAnswers (s : State) (ns : List Nat) : State := { s with data := { s.data with answers := ns } }

/-- `is_stalling`: the next step would be a running step that latches as a stall. It needs no value in flight and calls
no `load` (43_pipeline.md R275). -/
def State.isStalling (s : State) : Bool :=
  s.rc == 0 && !s.isHalted && !s.idex.ctl.j
    && hazardStall s.ifid.ins (controlWord s.flags (opcodeOf s.ifid.ins)) s.idex.ctl s.idex.selC s.exmem.ctl
        s.exmem.selC

/-- The accessor `pc` (60_exceptions.md R408). -/
def State.readPc (s : State) : Word := s.pc

/-- The accessors `n`, `c`, `z`, `v`, in this order (60_exceptions.md R408). -/
def State.readFlags (s : State) : Bool × Bool × Bool × Bool := (s.flags.n, s.flags.c, s.flags.z, s.flags.v)

/-- What `run()` has come to within a number of steps. -/
inductive RunOutcome where
  /-- `is_halted` became 1: `run()` returns. -/
  | halted (s : State)
  /-- Not yet halted; `run()` itself goes on, without limit (43_pipeline.md R276). -/
  | going (s : State)
  /-- A step was refused. -/
  | refused (r : Refusal)
deriving DecidableEq, Repr

/-- `run()` cut off after `fuel` steps: it steps until `is_halted` is 1, through any resetting steps, and returns at once
if it is 1 already (43_pipeline.md R276). -/
def State.runFor (fuel : Nat) (s : State) : RunOutcome :=
  if s.isHalted then .halted s
  else match fuel with
    | 0 => .going s
    | k + 1 =>
      match step s with
      | .next s' => State.runFor k s'
      | .fault f => nomatch f
      | .refused r => .refused r

/-- `run()` returns, in state `t`; it need not return at all (43_pipeline.md R276, 93_implementation_defined.md K9). -/
def State.runsTo (s t : State) : Prop := ∃ fuel, s.runFor fuel = .halted t

/-- The snapshot: exactly the state of 10_state.md R44, which holds nothing of the host's (60_exceptions.md R409). Its
serialized form is out of scope (00_scope.md R7). -/
structure Snapshot where
  regs : Regs
  flags : Flags
  pc : Word
  ifid : IfId
  idex : IdEx
  exmem : ExMem
  memwb : MemWb
  rc : Nat
  latches : AluLatches
deriving DecidableEq, Repr

/-- The core's state as a snapshot (10_state.md R44). -/
def State.snapshot (s : State) : Snapshot :=
  { regs := s.regs, flags := s.flags, pc := s.pc, ifid := s.ifid, idex := s.idex, exmem := s.exmem, memwb := s.memwb,
    rc := s.rc, latches := s.latches }

/-- The core's state taken from a snapshot; the host's side stays (60_exceptions.md R409). -/
def State.restore (s : State) (p : Snapshot) : State :=
  { s with regs := p.regs, flags := p.flags, pc := p.pc, ifid := p.ifid, idex := p.idex, exmem := p.exmem,
           memwb := p.memwb, rc := p.rc, latches := p.latches }

end Sys2Proof.Machine
end

