-- ==== Sys2Proof/Machine/ProgramOrder.lean ====
section
/-! DEFINITION. The program-order reading of the core (44_alu_instructions.md R300, 70_reset_and_hazards.md R437): the
architectural state the instructions in flight will leave, and the pseudocode of every instruction over it, as files 44
to 46 give it. It is written from those files alone: no control word, ALU or hazard unit is used in it, so that
agreement with the pipeline is a statement and not a definition. Log entry 14. -/

namespace Sys2Proof.Machine

/-- What program order works on: the registers, the flags, the address of the next instruction, the data space, and
whether a HLT has been executed. -/
structure Arch where
  regs : Regs
  flags : Flags
  /-- The address of the instruction program order executes next (`p` in 46_control_instructions.md R382). -/
  next : Word
  data : DataSpace
  halted : Bool
deriving DecidableEq, Repr

/-! ## From the pipeline to program order -/

/-- What one instruction still in flight does to registers and data space once its ALU result `y` is known: its memory
access, then its register write (43_pipeline.md R262, R263). -/
def complete (w : Ctl) (selC : RegIdx) (y op : Word) (r : Regs) (d : DataSpace) : Regs × DataSpace :=
  let m := memAccess w y op d
  (r.writeBack w selC y m.1, m.2)

/-- The registers and the data space once the instructions in WB and MEM have completed. -/
def State.afterMem (s : State) : Regs × DataSpace :=
  complete s.exmem.ctl s.exmem.selC s.exmem.y s.exmem.storeOp s.wbRegs s.data

/-- The registers and the data space once the instructions in WB, MEM and EX have completed. -/
def State.afterEx (s : State) : Regs × DataSpace :=
  complete s.idex.ctl s.idex.selC s.exY s.idex.storeOp s.afterMem.1 s.afterMem.2

/-- The program-order state of a pipeline: every instruction past ID completed. The next instruction is the jump target
if EX holds a jump, else the instruction in ID, whose address is the PC less 1 (43_pipeline.md R279). The register
write a HLT makes the core lose (70_reset_and_hazards.md R438) is still counted here. -/
def State.settle (s : State) : Arch :=
  { regs := s.afterEx.1
    flags := s.exFlags
    next := if s.idex.ctl.j then s.jumpTarget else s.pc - 1
    data := s.afterEx.2
    halted := s.idex.ctl.hlt || s.exmem.ctl.hlt }

/-! ## The pseudocode of each class -/

/-- An instruction that only moves on (46_control_instructions.md R370). -/
def Arch.skip (t : Arch) : Arch := { t with next := t.next + 1 }

/-- `flags(...); x[C] <- F` (44_alu_instructions.md R300). -/
def Arch.compute (t : Arch) (c : RegIdx) (f : Word) (fl : Flags) : Arch :=
  { t with regs := t.regs.write c f, flags := fl, next := t.next + 1 }

/-- `flags(...)` alone: CMP and CMPI. -/
def Arch.compare (t : Arch) (fl : Flags) : Arch := { t with flags := fl, next := t.next + 1 }

/-- `x[C] <- v`, no flag: LI, LUI. -/
def Arch.setReg (t : Arch) (c : RegIdx) (v : Word) : Arch :=
  { t with regs := t.regs.write c v, next := t.next + 1 }

/-- `x[C] <- MemRead(addr, 16)` (45_memory_and_immediate_instructions.md R340). -/
def Arch.loadReg (t : Arch) (c : RegIdx) (addr : Word) : Arch :=
  { t with regs := t.regs.write c (t.data.load addr).1, data := (t.data.load addr).2, next := t.next + 1 }

/-- `MemWrite(addr, 16, v)` (45_memory_and_immediate_instructions.md R341). -/
def Arch.storeWord (t : Arch) (addr v : Word) : Arch :=
  { t with data := t.data.store addr v, next := t.next + 1 }

/-- `if taken: pc <- p + 2 + sext_10(off)` (46_control_instructions.md R372, R375 to R380, R382). -/
def Arch.branch (t : Arch) (taken : Bool) (off : BitVec 10) : Arch :=
  if taken then { t with next := t.next + 2 + sext 10 off } else t.skip

/-- The effect of one instruction in program order. -/
def programOrder (i : Instr) (t : Arch) : Arch :=
  let x := t.regs.read
  match i with
  | .nop _ | .rsvd19 _ | .rsvd23 _ => t.skip
  | .hlt _ => { t.skip with halted := true }
  | .load c a imm => t.loadReg c (x a + sext 5 imm)
  | .store b a imm => t.storeWord (x a + sext 5 imm) (x b)
  | .li c imm => t.setReg c (sext 8 imm)
  | .lui c imm => t.setReg c (imm ++ (x c).extractLsb' 0 8)
  | .cmp _ a b _ => t.compare (flagsOfDifference (x a) (x b))
  | .add c a b _ => t.compute c (x a + x b) (flagsOfSum (x a) (x b) false)
  | .sub c a b _ => t.compute c (x a - x b) (flagsOfDifference (x a) (x b))
  | .and c a b _ => t.compute c (x a &&& x b) (flagsOfLogic (x a &&& x b))
  | .or c a b _ => t.compute c (x a ||| x b) (flagsOfLogic (x a ||| x b))
  | .xor c a b _ => t.compute c (x a ^^^ x b) (flagsOfLogic (x a ^^^ x b))
  | .not c a _ => t.compute c (~~~x a) (flagsOfLogic (~~~x a))
  | .cmpi _ a imm => t.compare (flagsOfDifference (x a) (sext 5 imm))
  | .addi c a imm => t.compute c (x a + sext 5 imm) (flagsOfSum (x a) (sext 5 imm) false)
  | .subi c a imm => t.compute c (x a - sext 5 imm) (flagsOfDifference (x a) (sext 5 imm))
  | .andi c a imm => t.compute c (x a &&& sext 5 imm) (flagsOfLogic (x a &&& sext 5 imm))
  | .ori c a imm => t.compute c (x a ||| sext 5 imm) (flagsOfLogic (x a ||| sext 5 imm))
  | .xori c a imm => t.compute c (x a ^^^ sext 5 imm) (flagsOfLogic (x a ^^^ sext 5 imm))
  | .jmp _ off => t.branch true off
  | .jr _ a b _ => { t with next := x a + x b }
  | .jalr c a b _ => { t with regs := t.regs.write c (t.next + 1), next := x a + x b }
  | .beq _ off => t.branch t.flags.z off
  | .bne _ off => t.branch (!t.flags.z) off
  | .blt _ off => t.branch (t.flags.n != t.flags.v) off
  | .bgt _ off => t.branch (!t.flags.z && t.flags.n == t.flags.v) off
  | .bltu _ off => t.branch (!t.flags.c) off
  | .bgtu _ off => t.branch (t.flags.c && !t.flags.z) off
  | .adc c a b _ => t.compute c (x a + x b + BitVec.ofNat 16 t.flags.c.toNat) (flagsOfSum (x a) (x b) t.flags.c)
  | .sbc c a b _ =>
    t.compute c (x a - x b - 1 + BitVec.ofNat 16 t.flags.c.toNat) (flagsOfBorrow (x a) (x b) t.flags.c)

end Sys2Proof.Machine
end

