-- ==== Sys2Proof/Safety.lean ====
section
/-! DEFINITION. The terms claims use: what a host owes the core, the control words that exist, and the invariants of
the machine. -/

namespace Sys2Proof.Machine

/-- Every answer the host has settled is a 16-bit value, as `load: FnMut(Address) -> u16` asks (60_exceptions.md R408,
R411). -/
def State.hostKeepsRange (s : State) : Bool := s.data.answers.all fun n => decide (n < 2 ^ 16)

/-- A control word the decoder gives for some flags and opcode (40_decoder.md R140, R171). -/
def inDecoderTable (w : Ctl) : Prop := ∃ f op, controlWord f op = w

/-- Every control word in flight is one the decoder gives. -/
def State.wordsInTable (s : State) : Prop :=
  inDecoderTable s.idex.ctl ∧ inDecoderTable s.exmem.ctl ∧ inDecoderTable s.memwb.ctl

/-- While resetting, the PC is 0 and every boundary register is a bubble (70_reset_and_hazards.md R432). -/
def State.quietWhileResetting (s : State) : Prop :=
  s.isResetting = true → s.pc = 0 ∧ s.ifid = IfId.bubble ∧ s.idex = IdEx.bubble ∧ s.exmem = ExMem.bubble
    ∧ s.memwb = MemWb.bubble

/-- The PC relations (43_pipeline.md R279), for an instruction array that stays: the word in ID is the one at the PC less
1, or a bubble; an instruction in EX has the fields of the word at the PC less 2, or is a NOP or a bubble; and the link
a JALR in EX carries is the PC less 1. -/
def State.pcRelations (s : State) : Prop :=
  (s.ifid = IfId.bubble ∨ s.ifid.ins = s.fetch (s.pc - 1))
  ∧ (s.idex.ctl = nopWord
      ∨ (s.idex.selC = fieldC (s.fetch (s.pc - 2)) ∧ s.idex.off = immD10 (s.fetch (s.pc - 2))
          ∧ (∃ f, s.idex.ctl = controlWord f (opcodeOf (s.fetch (s.pc - 2))))
          ∧ (s.idex.ctl.selStoreOp = 1 → s.idex.storeOp = s.pc - 1)))

/-- The control word of the instruction `i` under the flags `f`, by the decoder's table (40_decoder.md R140, R267). -/
def tableWord (i : Instr) (f : Flags) : Ctl := controlWord f i.opcode

/-- The instruction `i`, in ID, is held this step by the hazard unit (42_hazard_unit.md R240). -/
def State.holds (s : State) (i : Instr) : Bool :=
  hazardStall (encode i) (tableWord i s.flags) s.idex.ctl s.idex.selC s.exmem.ctl s.exmem.selC

/-- Nothing keeps the instruction `i` in ID from entering EX this step: no jump is in EX to flush it, the hazard unit
does not hold it, and the host answers a load in MEM with a 16-bit value (43_pipeline.md R270, 60_exceptions.md R411). -/
def State.issues (s : State) (i : Instr) : Bool :=
  !s.idex.ctl.j && !s.holds i && s.refusedAnswer == none

/-- No HLT is in EX or MEM: the core neither is halted nor is about to be (43_pipeline.md R274). -/
def State.noHaltInFlight (s : State) : Bool := !s.idex.ctl.hlt && !s.exmem.ctl.hlt

/-- What an instruction in ID needs to run, on the state alone: the word in EX is one of the decoder's, no HLT is ahead
of it, and nothing keeps it from entering EX this step. -/
def State.readyFor (s : State) (i : Instr) : Prop :=
  inDecoderTable s.idex.ctl ∧ s.noHaltInFlight = true ∧ s.issues i = true

end Sys2Proof.Machine
end

