-- ==== Sys2Proof/Certificates/Slice0/Obligations.lean ====
section
/-! DEFINITION. The statements for the provers, from the numbered rules of spec/. `State.settle`, the program-order
reading of a state that the instruction statements use, is the model's own (log entry 14); what it means for the
machine is `SettledStateIsReached`. -/

open Sys2Proof Sys2Proof.Machine

/-! ## Instruction words -/

/-- Decoding an encoded instruction gives it back, with every operand at every value (30_encoding.md R103, R104, R106). The
operands called `ign`, the bits a format ignores, are the model's own choice (log entry 9, DESIGN CHOICE); of the others the
statement is the spec's. -/
def Obligations.DecodeUndoesEncode : Prop := ∀ i : Instr, decode (encode i) = i

/-- Encoding what a word decodes to gives the word back, for every one of the 65536 words. That no bit is dropped holds of
this model because its constructors carry the bits a format ignores as operands, which is the model's own choice (log entry
9, DESIGN CHOICE); the spec calls those bits ignored. -/
def Obligations.EncodeUndoesDecode : Prop := ∀ ins : Word, encode (decode ins) = ins

/-- The spec's example words decode to the instructions they are written for (the Example lines of R301, R307, R313, R315,
R340, R341, R343, R373, R374, R377, R380 and the reserved words of R381). -/
def Obligations.SpecExampleWordsDecode : Prop :=
  decode 0x3028 = .cmp 0 1 2 0 ∧ decode 0x6320 = .not 3 1 0 ∧ decode 0x933F = .xori 3 1 0x1F
  ∧ decode 0xFB28 = .sbc 3 1 2 0 ∧ decode 0x133E = .load 3 1 0x1E ∧ decode 0x1929 = .store 2 1 5
  ∧ decode 0x2BAB = .lui 3 0xAB ∧ decode 0xA8E0 = .jr 0 7 0 0 ∧ decode 0xB7C0 = .jalr 7 6 0 0
  ∧ decode 0xD3F9 = .blt 0 0x3F9 ∧ decode 0xEA00 = .bgtu 0 0x200
  ∧ decode 0x9800 = .rsvd19 0 ∧ decode 0xBFFF = .rsvd23 0x7FF

/-- "Bits marked x are ignored: every value of them gives the same behaviour" (30_encoding.md R103, 60_exceptions.md R414):
clearing them changes neither whether the instruction is held, nor anything of the next state but what ID/EX latched, nor
the program-order result. -/
def Obligations.IgnoredBitsHaveNoEffect : Prop :=
  ∀ (i : Instr) (s : State),
    i.canonical.wellFormed = true ∧ s.holds i.canonical = s.holds i
    ∧ ∀ t u, exec i s = .next t → exec i.canonical s = .next u →
        t.settle = u.settle ∧ t = { u with idex := t.idex }

/-! ## Control words -/

/-- The reference table and the gate-level form agree on every index and every signal bit (40_decoder.md R174). -/
def Obligations.TableEqualsGateForm : Prop :=
  ∀ (index : BitVec 9) (b : Nat), b < 23 → (lookup index).getLsbD b = (pld index).getLsbD b

/-- The control words of the spec's table, by opcode, and their place in the 512-entry table
(40_decoder.md R141, R167, R171). -/
def Obligations.ControlWordsAreTheTables : Prop :=
  (∀ f op, lookup (decoderIndex f op) = controlWord f op)
  ∧ ∀ f : Flags,
    [0, 1, 2, 3, 4, 5, 6, 7, 8, 9, 10, 11, 12, 13, 14, 15, 16, 17, 18, 19, 20, 21, 22, 23, 30, 31].map (controlWord f)
      = [0x600000, 0x600001, 0x5E4D88, 0x018D90, 0x7F0004, 0x7B0006, 0x000D60, 0x1C0DA0, 0x1C0D60, 0x1C0F20, 0x1C0EA0,
         0x1C0E20, 0x5C04A0, 0x400D68, 0x5C0DA8, 0x5C0D68, 0x5C0F28, 0x5C0EA8, 0x5C0E28, 0x600000, 0x601000, 0x003D80,
         0x1F3D82, 0x600000, if f.c then 0x1C0DE0 else 0x1C0DA0, if f.c then 0x1C0D60 else 0x1C0D20]

/-- The conditional branches give the relative-jump word if their predicate holds and the NOP word if not
(40_decoder.md R168). -/
def Obligations.BranchWordsFollowThePredicates : Prop :=
  ∀ n c z v : Bool,
    let word (op : Opcode) := lookup (decoderIndex { n := n, c := c, z := z, v := v } op)
    (word 24 = if z = true then 0x601000#23 else 0x600000#23)
    ∧ (word 25 = if z = false then 0x601000#23 else 0x600000#23)
    ∧ (word 26 = if n ≠ v then 0x601000#23 else 0x600000#23)
    ∧ (word 27 = if z = false ∧ n = v then 0x601000#23 else 0x600000#23)
    ∧ (word 28 = if c = false then 0x601000#23 else 0x600000#23)
    ∧ (word 29 = if c = true ∧ z = false then 0x601000#23 else 0x600000#23)

/-- ADC and SBC take C0, bit 6, from the C flag; every other bit of their words is independent of the flags
(40_decoder.md R169). -/
def Obligations.CarryUsersTakeC0FromTheCarryFlag : Prop :=
  ∀ (op : Opcode) (f g : Flags), op = 30 ∨ op = 31 →
    (lookup (decoderIndex f op)).getLsbD 6 = f.c
    ∧ ∀ b : Nat, b ≠ 6 → (lookup (decoderIndex f op)).getLsbD b = (lookup (decoderIndex g op)).getLsbD b

/-- Flag independence: below 24 the flags do not matter; 24 to 29 take exactly the two values NOPW and JMPW; 30 and 31
differ only in C0 and only with C (40_decoder.md R170). -/
def Obligations.OnlyOpcodesAbove23DependOnFlags : Prop :=
  ∀ op : Opcode,
    (op.toNat < 24 → ∀ f g, lookup (decoderIndex f op) = lookup (decoderIndex g op))
    ∧ (24 ≤ op.toNat → op.toNat ≤ 29 →
        (∀ f, lookup (decoderIndex f op) = 0x600000#23 ∨ lookup (decoderIndex f op) = 0x601000#23)
        ∧ (∃ f, lookup (decoderIndex f op) = 0x600000#23) ∧ (∃ f, lookup (decoderIndex f op) = 0x601000#23))
    ∧ (30 ≤ op.toNat → ∀ f g : Flags,
        (f.c = g.c → lookup (decoderIndex f op) = lookup (decoderIndex g op))
        ∧ ∀ b : Nat, (lookup (decoderIndex f op)).getLsbD b ≠ (lookup (decoderIndex g op)).getLsbD b → b = 6)

/-- The reserved opcodes 19 and 23 give NOPW for every flag value (40_decoder.md R176). -/
def Obligations.ReservedOpcodesGiveTheNopWord : Prop :=
  ∀ f : Flags, lookup (decoderIndex f 19) = 0x600000#23 ∧ lookup (decoderIndex f 23) = 0x600000#23

/-- Both implementations are queried through one signature, `decode(index: u32) -> u32`: index bits above bit 8 are ignored,
bits 31 to 23 of the answer are 0, the two answer alike on every index, and on `flags << 5 | opcode` they answer the control
word of those flags and that opcode (40_decoder.md R140, R142, R174). -/
def Obligations.DecoderIgnoresHighIndexBits : Prop :=
  (∀ index : BitVec 32,
    decodeU32 index = decodeU32 (index &&& 0x1FF#32) ∧ (decodeU32 index).toNat < 2 ^ 23
    ∧ pldU32 index = pldU32 (index &&& 0x1FF#32) ∧ (pldU32 index).toNat < 2 ^ 23
    ∧ pldU32 index = decodeU32 index)
  ∧ ∀ (f : Flags) (op : Opcode),
      let nibble := BitVec.ofBool f.n ++ BitVec.ofBool f.c ++ BitVec.ofBool f.z ++ BitVec.ofBool f.v
      let index : BitVec 32 := nibble.setWidth 32 <<< 5 ||| op.setWidth 32
      decodeU32 index = (controlWord f op).setWidth 32 ∧ pldU32 index = (controlWord f op).setWidth 32

/-! ## The ALU -/

/-- The additive functions: exact 17-bit sum of the addends X, Y and C0, its low 16 bits and its carry out
(41_alu.md R204, R205). -/
def Obligations.AdditiveFunctionsCarryOut : Prop :=
  ∀ (r s : Word) (c0 : Bool),
    let sum17 (v : AluValue) (x y : Word) := v.fc.toNat + 2 ^ 16 * v.c16.toNat = x.toNat + y.toNat + c0.toNat
    sum17 (aluFunction 1 r s c0) (~~~r) s ∧ sum17 (aluFunction 2 r s c0) r (~~~s) ∧ sum17 (aluFunction 3 r s c0) r s

/-- Additive overflow: the carry into bit 15 exclusive-or the carry out of bit 15, which is 1 exactly when the signed sum
is outside -32768 to 32767; for a difference, exactly when the signed difference is (41_alu.md R206). -/
def Obligations.OverflowIsSignedRange : Prop :=
  (∀ (x y : Word) (c0 : Bool),
    let v := aluFunction 3 x y c0
    v.ovf = (decide (2 ^ 15 ≤ x.toNat % 2 ^ 15 + y.toNat % 2 ^ 15 + c0.toNat) != v.c16)
    ∧ v.ovf = outsideSigned (x.toInt + y.toInt + c0.toNat))
  ∧ (∀ (x y : Word) (c0 : Bool),
    aluFunction 2 x y c0 = aluFunction 3 x (~~~y) c0 ∧ aluFunction 1 x y c0 = aluFunction 3 (~~~x) y c0)
  ∧ ∀ r s : Word,
    (aluFunction 2 r s true).ovf = outsideSigned (r.toInt - s.toInt)
    ∧ (aluFunction 1 r s true).ovf = outsideSigned (s.toInt - r.toInt)

/-- Logic and constant functions give C16 = 0 and OVF = 0 (41_alu.md R207). -/
def Obligations.LogicFunctionsGiveNoCarry : Prop :=
  ∀ (i : BitVec 3) (r s : Word) (c0 : Bool), i = 0 ∨ i = 4 ∨ i = 5 ∨ i = 6 ∨ i = 7 →
    (aluFunction i r s c0).c16 = false ∧ (aluFunction i r s c0).ovf = false

/-- C16 after a subtraction means no borrow; with C0 = 0 the function subtracts one more (41_alu.md R208, the
spec's own inference from R204 and R205). -/
def Obligations.SubtractionCarryMeansNoBorrow : Prop :=
  ∀ r s : Word,
    (aluFunction 2 r s true).fc = r - s ∧ (aluFunction 2 r s true).c16 = decide (s.toNat ≤ r.toNat)
    ∧ (aluFunction 2 r s false).fc = r - s - 1 ∧ (aluFunction 2 r s false).c16 = decide (s.toNat < r.toNat)

/-- The ALU whole: the effective operands are the inputs with FTAB and the latches without; the routing R and S from them
and the latched F; the function block on R, S and C0, with its constants and logic functions; Z whether the combinational
result is 0, whatever FTF and OEF are; F none exactly with OEF deasserted, and the latched F with FTF deasserted; each latch
keeps its value unless enabled (41_alu.md R202 to R204, R209 to R211). The additive functions are stated above. -/
def Obligations.AluOutputAndLatches : Prop :=
  (∀ (a b : Word) (c0 : Bool) (i : BitVec 3) (rs : BitVec 2) (lines : AluLines) (l : AluLatches),
    let ae := if lines.ftab = true then a else l.aluA
    let be := if lines.ftab = true then b else l.aluB
    let r : Word := if rs = 2 then 0 else ae
    let s : Word := if rs = 0 then l.aluF else if rs = 1 then 0 else be
    let v := aluFunction i r s c0
    alu a b c0 i rs lines l =
      { f := if lines.oef = true then some (if lines.ftf = true then v.fc else l.aluF) else none
        c16 := v.c16
        zero := decide (v.fc = 0)
        ovf := v.ovf
        latches :=
          { aluA := if lines.ena = true then a else l.aluA
            aluB := if lines.enb = true then b else l.aluB
            aluF := if lines.enf = true then v.fc else l.aluF } })
  ∧ ∀ (r s : Word) (c0 : Bool),
      (aluFunction 0 r s c0).fc = 0 ∧ (aluFunction 4 r s c0).fc = r ^^^ s ∧ (aluFunction 5 r s c0).fc = r ||| s
      ∧ (aluFunction 6 r s c0).fc = r &&& s ∧ (aluFunction 7 r s c0).fc = 0xFFFF

/-- In the pipeline the ALU's result is always a value, it is what the latch `aluF` takes, and no control word of the
decoder makes it, or a flag, depend on the latches (41_alu.md R213, and R214, the spec's own inference). -/
def Obligations.NoInstructionReadsTheAluLatches : Prop :=
  ∀ (s : State) (l : AluLatches),
    s.exAlu.f = some s.exY
    ∧ s.exAlu.latches = { aluA := s.idex.left, aluB := s.idex.right, aluF := s.exY }
    ∧ (inDecoderTable s.idex.ctl →
        ({ s with latches := l } : State).exY = s.exY ∧ ({ s with latches := l } : State).exFlags = s.exFlags)

/-! ## Hazards -/

/-- Rule 1: a port marked unused neither forwards nor adds to the stall, whatever its field holds, so an instruction that
uses neither port and no flag is never held (42_hazard_unit.md R232). -/
def Obligations.UnusedPortNeverStallsNorForwards : Prop :=
  ∀ (s : State) (i : Instr),
    let w := tableWord i s.flags
    let h := s.hazardOf (encode i) w
    let stallOf (unused : Bool) (r : RegIdx) :=
      (portSelect unused r s.idex.ctl s.idex.selC s.exmem.ctl s.exmem.selC).2
    (w.leftUnused = true → h.selA = .none ∧
      h.stall = (stallOf w.rightUnused (fieldB (encode i)) || flagStall (encode i) s.idex.ctl))
    ∧ (w.rightUnused = true → h.selB = .none ∧
      h.stall = (stallOf w.leftUnused (fieldA (encode i)) || flagStall (encode i) s.idex.ctl))
    ∧ (w.leftUnused = true → w.rightUnused = true → i.opcode.toNat < 24 → s.holds i = false)

/-- Rules 2, 3 and 5, port A and port B: a match in EX forwards an ALU result from EX, the port adding nothing to the stall,
and stalls on a store operand with no forwarding, whatever is in MEM (42_hazard_unit.md R233, R234, R236). -/
def Obligations.ProducerInExForwardsOrStalls : Prop :=
  ∀ (s : State) (i : Instr),
    let w := tableWord i s.flags
    let h := s.hazardOf (encode i) w
    let stallOf (unused : Bool) (r : RegIdx) :=
      (portSelect unused r s.idex.ctl s.idex.selC s.exmem.ctl s.exmem.selC).2
    (w.leftUnused = false → writesReg s.idex.ctl s.idex.selC (fieldA (encode i)) = true →
      (s.idex.ctl.writeBackSrc = false → h.selA = .fromEx ∧
        h.stall = (stallOf w.rightUnused (fieldB (encode i)) || flagStall (encode i) s.idex.ctl)) ∧
      (s.idex.ctl.writeBackSrc = true → h.stall = true ∧ h.selA = .none))
    ∧ (w.rightUnused = false → writesReg s.idex.ctl s.idex.selC (fieldB (encode i)) = true →
      (s.idex.ctl.writeBackSrc = false → h.selB = .fromEx ∧
        h.stall = (stallOf w.leftUnused (fieldA (encode i)) || flagStall (encode i) s.idex.ctl)) ∧
      (s.idex.ctl.writeBackSrc = true → h.stall = true ∧ h.selB = .none))

/-- Rule 4: a match in MEM only forwards the MEM value, whatever its kind. It never adds to the stall: an instruction is held
exactly when a port it uses is written by a store-operand producer in EX, or it reads the flags and EX writes them, whatever
is in MEM and whatever else EX forwards (42_hazard_unit.md R235, R240, R242). -/
def Obligations.ProducerInMemForwards : Prop :=
  ∀ (s : State) (i : Instr),
    let w := tableWord i s.flags
    let h := s.hazardOf (encode i) w
    let exWrites (r : RegIdx) := writesReg s.idex.ctl s.idex.selC r = true
    let memWrites (r : RegIdx) := writesReg s.exmem.ctl s.exmem.selC r = true
    (w.leftUnused = false → ¬ exWrites (fieldA (encode i)) → memWrites (fieldA (encode i)) → h.selA = .fromMem)
    ∧ (w.rightUnused = false → ¬ exWrites (fieldB (encode i)) → memWrites (fieldB (encode i)) → h.selB = .fromMem)
    ∧ h.stall = s.holds i
    ∧ (h.stall = true ↔
        (w.leftUnused = false ∧ exWrites (fieldA (encode i)) ∧ s.idex.ctl.writeBackSrc = true)
        ∨ (w.rightUnused = false ∧ exWrites (fieldB (encode i)) ∧ s.idex.ctl.writeBackSrc = true)
        ∨ (24 ≤ i.opcode.toNat ∧ s.idex.ctl.fi = true))

/-- Rule 6: opcodes 24 to 31 stall while a flag writer is in EX, and no other opcode stalls for the flags
(42_hazard_unit.md R237). -/
def Obligations.FlagReaderWaitsForFlagWriter : Prop :=
  ∀ (s : State) (i : Instr),
    (24 ≤ i.opcode.toNat → s.idex.ctl.fi = true → s.holds i = true)
    ∧ flagStall (encode i) s.idex.ctl = (decide (24 ≤ i.opcode.toNat) && s.idex.ctl.fi)

/-- A stall lasts exactly one cycle: the step that holds an instruction keeps it in ID with its PC, puts a bubble into EX,
and the next step does not hold it (42_hazard_unit.md R244 to R246, the spec's own inferences from R234, R235, R237 and
43_pipeline.md R272). -/
def Obligations.StallLastsOneCycle : Prop :=
  ∀ (i : Instr) (s t : State), s.idex.ctl.j = false → s.holds i = true → exec i s = .next t →
    t.ifid = s.ifid ∧ t.pc = s.pc ∧ t.idex = IdEx.bubble ∧ t.holds i = false ∧ t.idex.ctl.j = false

/-- An instruction that is not held reads, through forwarding, what program order gives its registers
(42_hazard_unit.md R239, R241; 70_reset_and_hazards.md R437, the spec's own inference). The program-order reading is the
model's (log entry 14). -/
def Obligations.ForwardedPortsReadInProgramOrder : Prop :=
  ∀ (s : State) (i : Instr), inDecoderTable s.idex.ctl → s.holds i = false →
    ((tableWord i s.flags).leftUnused = false →
      (s.hazardOf (encode i) (tableWord i s.flags)).vA = s.settle.regs.read (fieldA (encode i)))
    ∧ ((tableWord i s.flags).rightUnused = false →
      (s.hazardOf (encode i) (tableWord i s.flags)).vB = s.settle.regs.read (fieldB (encode i)))

/-- `is_stalling` is 1 exactly when the next step would be a running step that latches as a stall
(43_pipeline.md R275). -/
def Obligations.StallingStatusPredictsTheStall : Prop :=
  ∀ s : State, s.refusedAnswer = none →
    (s.isStalling = true → step s = .next s.latchStall)
    ∧ (s.isStalling = false → s.rc = 0 → s.isHalted = false →
        step s = .next s.latchFlush
        ∨ step s = .next (s.latchNormal (s.idContent s.ifid.ins (controlWord s.flags (opcodeOf s.ifid.ins)))))

/-! ## The step -/

/-- A running step runs the instruction that the word in ID decodes to; a resetting step and a step of a halted core do
not (43_pipeline.md R260, R267). That `exec` is the running step with an instruction in ID is the model's reading (log
entry 1). -/
def Obligations.StepRunsTheInstructionInId : Prop :=
  ∀ (s : State) (i : Instr), decode s.ifid.ins = i →
    (s.rc = 0 → s.isHalted = false → step s = exec i s)
    ∧ (s.isHalted = true → step s = .next s)
    ∧ (0 < s.rc → step s = .next s.resettingStep)

/-- The word at the PC that a step fetches and keeps is the instruction the step after it runs
(43_pipeline.md R269, R271). -/
def Obligations.FetchedWordRunsInTheNextStep : Prop :=
  ∀ (i : Instr) (s t : State), s.rc = 0 → s.idex.ctl.hlt = false → s.issues i = true → exec i s = .next t →
    t.ifid.ins = s.fetch s.pc ∧ t.pc = s.pc + 1 ∧ step t = exec (decode (s.fetch s.pc)) t

/-- A row's word, placed where the next step takes its instruction from, is run by that very step and is not held
(log entry 10; 43_pipeline.md R260, R267). -/
def Obligations.PlacedWordRunsAtOnce : Prop :=
  ∀ (s : State) (w : Nat) (i : Instr), s.imem.wf = true → decodeTableWord 16 w = some i →
    step (s.withFetchWord 16 w) = exec i (s.withFetchWord 16 w) ∧ (s.withFetchWord 16 w).readyFor i
    ∧ (s.withFetchWord 16 w).fetch s.pc = (s.withFetchWord 16 w).ifid.ins

/-- What every running step does to the rest of the machine, whatever instruction is in ID: WB writes the enabled bytes of
one register and no other register changes; the write is what ID reads (43_pipeline.md R262). -/
def Obligations.WriteBackIsTheOnlyRegisterWrite : Prop :=
  ∀ (i : Instr) (s t : State), exec i s = .next t →
    (∀ r : RegIdx, t.regs.read r =
      if s.memwb.ctl.wben = true ∧ s.memwb.selC = r then
        let v := if s.memwb.ctl.writeBackSrc then s.memwb.data else s.memwb.y
        let mask : Word := (if s.memwb.ctl.wrl then 0x00FF else 0) ||| (if s.memwb.ctl.wrh then 0xFF00 else 0)
        (s.regs.read r &&& ~~~mask) ||| (v &&& mask)
      else s.regs.read r)
    ∧ ((s.hazardOf (encode i) (tableWord i s.flags)).selA = .none →
        (s.hazardOf (encode i) (tableWord i s.flags)).vA = t.regs.read (fieldA (encode i)))
    ∧ ((s.hazardOf (encode i) (tableWord i s.flags)).selB = .none →
        (s.hazardOf (encode i) (tableWord i s.flags)).vB = t.regs.read (fieldB (encode i)))

/-- MEM: the data-path value and the calls of the host, and what passes to WB (43_pipeline.md R263). The queue of answers
and the record of calls are the model's (log entries 3, 4 and 12). -/
def Obligations.MemPhaseCallsTheHost : Prop :=
  ∀ (i : Instr) (s t : State), exec i s = .next t →
    let m := s.exmem
    t.memwb.ctl = m.ctl ∧ t.memwb.y = m.y ∧ t.memwb.selC = m.selC
    ∧ t.memwb.data = (if m.ctl.memLoad then s.data.answer m.y else if m.ctl.assertStoreOp then m.storeOp else 0)
    ∧ t.data.calls = s.data.calls ++ (if m.ctl.memLoad then [.load m.y (s.data.answer m.y)] else [])
        ++ (if m.ctl.memStore then [.store m.storeOp m.y] else [])
    ∧ t.data.answers = (if m.ctl.memLoad then s.data.answers.tail else s.data.answers)

/-- EX: the ALU result passes to MEM with its word, store operand and destination; the flags are written only with FI,
all four from the ALU; the latches take the operands and the result (43_pipeline.md R264, R265; 41_alu.md R213). -/
def Obligations.ExPhaseWritesTheFlagsOnlyWithFI : Prop :=
  ∀ (i : Instr) (s t : State), exec i s = .next t →
    t.exmem = { ctl := s.idex.ctl, y := s.exY, storeOp := s.idex.storeOp, selC := s.idex.selC }
    ∧ (s.idex.ctl.fi = true →
        t.flags = { n := s.exY.getLsbD 15, c := s.exAlu.c16, z := decide (s.exY = 0), v := s.exAlu.ovf })
    ∧ (s.idex.ctl.fi = false → t.flags = s.flags)
    ∧ t.latches = { aluA := s.idex.left, aluB := s.idex.right, aluF := s.exY }

/-- No running step changes the reset counter or the instruction memory, and its latch case is flush over stall over
normal: PC, IF/ID and ID/EX in each (43_pipeline.md R270 to R273, 20_memory.md R83). -/
def Obligations.LatchCasesFlushStallNormal : Prop :=
  ∀ (i : Instr) (s t : State), exec i s = .next t →
    t.rc = s.rc ∧ t.imem = s.imem
    ∧ (s.idex.ctl.j = true →
        t.pc = (if s.idex.ctl.jabs then s.exY else s.pc + s.idex.off) ∧ t.ifid = IfId.bubble ∧ t.idex = IdEx.bubble)
    ∧ (s.idex.ctl.j = false → s.holds i = true → t.pc = s.pc ∧ t.ifid = s.ifid ∧ t.idex = IdEx.bubble)
    ∧ (s.idex.ctl.j = false → s.holds i = false →
        t.pc = s.pc + 1 ∧ t.ifid.ins = s.fetch s.pc
        ∧ t.idex = s.idContent (encode i) (controlWord s.flags i.opcode))

/-- Halt: once HLT has been in EX the core is halted, and from then on any number of steps changes nothing. The register
write of the instruction directly before HLT, in MEM in that step, is never made; its flags are written and its memory
access is done (43_pipeline.md R274, 70_reset_and_hazards.md R438). -/
def Obligations.HaltLosesThePrecedingWrite : Prop :=
  ∀ s t : State, s.rc = 0 → s.exmem.ctl.hlt = false → s.idex.ctl = 0x600001#23 → step s = .next t →
    t.isHalted = true ∧ (∀ n, core.run n t = .next t)
    ∧ t.regs = s.wbRegs ∧ t.flags = s.flags ∧ t.data = s.memPhase.2 ∧ t.memwb.ctl = s.exmem.ctl

/-- A step answers a next state whenever the host keeps its answers to 16 bits, and it keeps that; the one refusal is a
load answered outside 16 bits, by which the step is refused whole (the model's choice, log entry 7). There is no fault to
raise (60_exceptions.md R400, R411). -/
def Obligations.StepStopsOnlyOnHostMisuse : Prop :=
  ∀ s : State,
    (s.hostKeepsRange = true → ∃ t, step s = .next t ∧ t.hostKeepsRange = true)
    ∧ (∀ f, step s ≠ .fault f)
    ∧ ∀ r, step s = .refused r → s.rc = 0 ∧ s.exmem.ctl.memLoad = true
        ∧ ∃ n, r = .loadAnswerOutOfRange n ∧ 2 ^ 16 ≤ n ∧ s.data.answers.head? = some n

/-- The calls a step makes: none while resetting or halted, else one `load` for a LOAD in MEM, one `store` for a STORE in
MEM, none otherwise; so at most one (20_memory.md R75, and R76, the spec's own inference). The record of the calls is the
model's (log entry 4). -/
def Obligations.AtMostOneCallInAStep : Prop :=
  ∀ s t : State, s.wordsInTable → step s = .next t →
    (t.data.calls = s.data.calls ∨ ∃ c, t.data.calls = s.data.calls ++ [c])
    ∧ (s.isResetting = true ∨ s.isHalted = true → t.data = s.data)
    ∧ (s.rc = 0 → s.isHalted = false →
        (s.exmem.ctl = 0x5E4D88#23 → t.data.calls = s.data.calls ++ [.load s.exmem.y t.memwb.data])
        ∧ (s.exmem.ctl = 0x018D90#23 → t.data.calls = s.data.calls ++ [.store s.exmem.storeOp s.exmem.y])
        ∧ (s.exmem.ctl ≠ 0x5E4D88#23 → s.exmem.ctl ≠ 0x018D90#23 → t.data = s.data))

/-! ## The instructions, in program order

Each says that the instruction answers a next state, that this state is the normal latch of 43_pipeline.md R271 (all the
rest of the machine moves on as the phase statements above say), and what the program-order reading of it is, whole: what
is not named is unchanged. The reading, `State.settle`, is the model's (log entry 14); `SettledStateIsReached` says what it
means for the machine. -/

/-- ADD, SUB and CMP complete (44_alu_instructions.md R301 to R303, R317). -/
def Obligations.AddSubCmpComplete : Prop :=
  (∀ c a b ign s, s.readyFor (.add c a b ign) → ∃ t, exec (.add c a b ign) s = .next t ∧ t = s.latchNormal t.idex
    ∧ t.settle = { s.settle with
        regs := s.settle.regs.write c (s.settle.regs.read a + s.settle.regs.read b)
        flags := flagsOfSum (s.settle.regs.read a) (s.settle.regs.read b) false
        next := s.settle.next + 1 })
  ∧ (∀ c a b ign s, s.readyFor (.sub c a b ign) → ∃ t, exec (.sub c a b ign) s = .next t ∧ t = s.latchNormal t.idex
    ∧ t.settle = { s.settle with
        regs := s.settle.regs.write c (s.settle.regs.read a - s.settle.regs.read b)
        flags := flagsOfDifference (s.settle.regs.read a) (s.settle.regs.read b)
        next := s.settle.next + 1 })
  ∧ (∀ ign a b ign2 s, s.readyFor (.cmp ign a b ign2) →
    ∃ t, exec (.cmp ign a b ign2) s = .next t ∧ t = s.latchNormal t.idex
    ∧ t.settle = { s.settle with
        flags := flagsOfDifference (s.settle.regs.read a) (s.settle.regs.read b)
        next := s.settle.next + 1 })

/-- AND, OR, XOR and NOT complete; N and Z follow the result, C and V are cleared
(44_alu_instructions.md R304 to R307, R317). -/
def Obligations.LogicComplete : Prop :=
  (∀ c a b ign s, s.readyFor (.and c a b ign) → ∃ t, exec (.and c a b ign) s = .next t ∧ t = s.latchNormal t.idex
    ∧ t.settle = { s.settle with
        regs := s.settle.regs.write c (s.settle.regs.read a &&& s.settle.regs.read b)
        flags := flagsOfLogic (s.settle.regs.read a &&& s.settle.regs.read b)
        next := s.settle.next + 1 })
  ∧ (∀ c a b ign s, s.readyFor (.or c a b ign) → ∃ t, exec (.or c a b ign) s = .next t ∧ t = s.latchNormal t.idex
    ∧ t.settle = { s.settle with
        regs := s.settle.regs.write c (s.settle.regs.read a ||| s.settle.regs.read b)
        flags := flagsOfLogic (s.settle.regs.read a ||| s.settle.regs.read b)
        next := s.settle.next + 1 })
  ∧ (∀ c a b ign s, s.readyFor (.xor c a b ign) → ∃ t, exec (.xor c a b ign) s = .next t ∧ t = s.latchNormal t.idex
    ∧ t.settle = { s.settle with
        regs := s.settle.regs.write c (s.settle.regs.read a ^^^ s.settle.regs.read b)
        flags := flagsOfLogic (s.settle.regs.read a ^^^ s.settle.regs.read b)
        next := s.settle.next + 1 })
  ∧ (∀ c a ign s, s.readyFor (.not c a ign) → ∃ t, exec (.not c a ign) s = .next t ∧ t = s.latchNormal t.idex
    ∧ t.settle = { s.settle with
        regs := s.settle.regs.write c (~~~s.settle.regs.read a)
        flags := flagsOfLogic (~~~s.settle.regs.read a)
        next := s.settle.next + 1 })

/-- ADDI, SUBI and CMPI complete, with the immediate sign-extended (44_alu_instructions.md R308 to R310, R317). -/
def Obligations.ImmediateArithmeticCompletes : Prop :=
  (∀ c a imm s, s.readyFor (.addi c a imm) → ∃ t, exec (.addi c a imm) s = .next t ∧ t = s.latchNormal t.idex
    ∧ t.settle = { s.settle with
        regs := s.settle.regs.write c (s.settle.regs.read a + imm.signExtend 16)
        flags := flagsOfSum (s.settle.regs.read a) (imm.signExtend 16) false
        next := s.settle.next + 1 })
  ∧ (∀ c a imm s, s.readyFor (.subi c a imm) → ∃ t, exec (.subi c a imm) s = .next t ∧ t = s.latchNormal t.idex
    ∧ t.settle = { s.settle with
        regs := s.settle.regs.write c (s.settle.regs.read a - imm.signExtend 16)
        flags := flagsOfDifference (s.settle.regs.read a) (imm.signExtend 16)
        next := s.settle.next + 1 })
  ∧ (∀ ign a imm s, s.readyFor (.cmpi ign a imm) →
    ∃ t, exec (.cmpi ign a imm) s = .next t ∧ t = s.latchNormal t.idex
    ∧ t.settle = { s.settle with
        flags := flagsOfDifference (s.settle.regs.read a) (imm.signExtend 16)
        next := s.settle.next + 1 })

/-- ANDI, ORI and XORI complete, with the immediate sign-extended (44_alu_instructions.md R311 to R313, R317). -/
def Obligations.ImmediateLogicCompletes : Prop :=
  (∀ c a imm s, s.readyFor (.andi c a imm) → ∃ t, exec (.andi c a imm) s = .next t ∧ t = s.latchNormal t.idex
    ∧ t.settle = { s.settle with
        regs := s.settle.regs.write c (s.settle.regs.read a &&& imm.signExtend 16)
        flags := flagsOfLogic (s.settle.regs.read a &&& imm.signExtend 16)
        next := s.settle.next + 1 })
  ∧ (∀ c a imm s, s.readyFor (.ori c a imm) → ∃ t, exec (.ori c a imm) s = .next t ∧ t = s.latchNormal t.idex
    ∧ t.settle = { s.settle with
        regs := s.settle.regs.write c (s.settle.regs.read a ||| imm.signExtend 16)
        flags := flagsOfLogic (s.settle.regs.read a ||| imm.signExtend 16)
        next := s.settle.next + 1 })
  ∧ (∀ c a imm s, s.readyFor (.xori c a imm) → ∃ t, exec (.xori c a imm) s = .next t ∧ t = s.latchNormal t.idex
    ∧ t.settle = { s.settle with
        regs := s.settle.regs.write c (s.settle.regs.read a ^^^ imm.signExtend 16)
        flags := flagsOfLogic (s.settle.regs.read a ^^^ imm.signExtend 16)
        next := s.settle.next + 1 })

/-- ADC and SBC complete: SBC subtracts one more when no carry is set (44_alu_instructions.md R314, R315, R317). -/
def Obligations.CarryArithmeticCompletes : Prop :=
  (∀ c a b ign s, s.readyFor (.adc c a b ign) → ∃ t, exec (.adc c a b ign) s = .next t ∧ t = s.latchNormal t.idex
    ∧ t.settle = { s.settle with
        regs := s.settle.regs.write c
          (s.settle.regs.read a + s.settle.regs.read b + (if s.settle.flags.c then 1 else 0))
        flags := flagsOfSum (s.settle.regs.read a) (s.settle.regs.read b) s.settle.flags.c
        next := s.settle.next + 1 })
  ∧ (∀ c a b ign s, s.readyFor (.sbc c a b ign) → ∃ t, exec (.sbc c a b ign) s = .next t ∧ t = s.latchNormal t.idex
    ∧ t.settle = { s.settle with
        regs := s.settle.regs.write c
          (s.settle.regs.read a - s.settle.regs.read b - (if s.settle.flags.c then 0 else 1))
        flags := flagsOfBorrow (s.settle.regs.read a) (s.settle.regs.read b) s.settle.flags.c
        next := s.settle.next + 1 })

/-- LOAD completes: one call `load` at base plus offset, whose answer the register takes, and no flag changes
(45_memory_and_immediate_instructions.md R340, R344, R345). -/
def Obligations.LoadCompletes : Prop :=
  ∀ c a imm s, s.readyFor (.load c a imm) → ∃ t, exec (.load c a imm) s = .next t ∧ t = s.latchNormal t.idex
    ∧ let addr := s.settle.regs.read a + imm.signExtend 16
      let answer := s.settle.data.answer addr
      t.settle = { s.settle with
        regs := s.settle.regs.write c answer
        data := { answers := s.settle.data.answers.tail, calls := s.settle.data.calls ++ [.load addr answer] }
        next := s.settle.next + 1 }

/-- STORE completes: one call `store` of the data register at base plus offset; no register and no flag changes
(45_memory_and_immediate_instructions.md R341, R344, R345). -/
def Obligations.StoreCompletes : Prop :=
  ∀ b a imm s, s.readyFor (.store b a imm) → ∃ t, exec (.store b a imm) s = .next t ∧ t = s.latchNormal t.idex
    ∧ let addr := s.settle.regs.read a + imm.signExtend 16
      t.settle = { s.settle with
        data := { s.settle.data with calls := s.settle.data.calls ++ [.store (s.settle.regs.read b) addr] }
        next := s.settle.next + 1 }

/-- LI and LUI complete: LI sign-extends, LUI replaces the high byte alone; no flag changes
(45_memory_and_immediate_instructions.md R342 to R344). -/
def Obligations.LoadImmediateCompletes : Prop :=
  (∀ c imm s, s.readyFor (.li c imm) → ∃ t, exec (.li c imm) s = .next t ∧ t = s.latchNormal t.idex
    ∧ t.settle = { s.settle with
        regs := s.settle.regs.write c (imm.signExtend 16), next := s.settle.next + 1 })
  ∧ (∀ c imm s, s.readyFor (.lui c imm) → ∃ t, exec (.lui c imm) s = .next t ∧ t = s.latchNormal t.idex
    ∧ t.settle = { s.settle with
        regs := s.settle.regs.write c (imm ++ (s.settle.regs.read c).setWidth 8), next := s.settle.next + 1 })

/-- NOP and the reserved opcodes complete and change nothing but the place in the program
(46_control_instructions.md R370, R381). -/
def Obligations.NopAndReservedComplete : Prop :=
  ∀ ign s,
    (s.readyFor (.nop ign) → ∃ t, exec (.nop ign) s = .next t ∧ t = s.latchNormal t.idex
      ∧ t.settle = { s.settle with next := s.settle.next + 1 })
    ∧ (s.readyFor (.rsvd19 ign) → ∃ t, exec (.rsvd19 ign) s = .next t ∧ t = s.latchNormal t.idex
      ∧ t.settle = { s.settle with next := s.settle.next + 1 })
    ∧ (s.readyFor (.rsvd23 ign) → ∃ t, exec (.rsvd23 ign) s = .next t ∧ t = s.latchNormal t.idex
      ∧ t.settle = { s.settle with next := s.settle.next + 1 })

/-- HLT completes: it enters EX, and the step after it leaves the core halted with the PC at the address of HLT plus 3
(46_control_instructions.md R371, 43_pipeline.md R274). -/
def Obligations.HltCompletes : Prop :=
  ∀ ign s, s.rc = 0 → s.readyFor (.hlt ign) → ∃ t, exec (.hlt ign) s = .next t ∧ t = s.latchNormal t.idex
    ∧ t.settle = { s.settle with next := s.settle.next + 1, halted := true } ∧ t.isHalted = false
    ∧ ∀ u, step t = .next u → u.isHalted = true ∧ u.pc = s.settle.next + 3 ∧ step u = .next u

/-- JMP, JR and JALR complete: relative to the address plus 2, or the sum of two registers; JALR writes its own address
plus 1, from the old register values; no flag changes (46_control_instructions.md R372 to R374, R382, R383). -/
def Obligations.JumpsComplete : Prop :=
  (∀ ign off s, s.readyFor (.jmp ign off) → ∃ t, exec (.jmp ign off) s = .next t ∧ t = s.latchNormal t.idex
    ∧ t.settle = { s.settle with next := s.settle.next + 2 + off.signExtend 16 })
  ∧ (∀ ign a b ign2 s, s.readyFor (.jr ign a b ign2) →
    ∃ t, exec (.jr ign a b ign2) s = .next t ∧ t = s.latchNormal t.idex
    ∧ t.settle = { s.settle with next := s.settle.regs.read a + s.settle.regs.read b })
  ∧ (∀ c a b ign s, s.readyFor (.jalr c a b ign) →
    ∃ t, exec (.jalr c a b ign) s = .next t ∧ t = s.latchNormal t.idex
    ∧ t.settle = { s.settle with
        regs := s.settle.regs.write c (s.settle.next + 1)
        next := s.settle.regs.read a + s.settle.regs.read b })

/-- The six conditional branches complete: to the address plus 2 plus the offset if the predicate holds of the flags as
program order leaves them, else to the next address; nothing else changes (46_control_instructions.md R375 to R380,
R382, R383). -/
def Obligations.BranchesComplete : Prop :=
  ∀ ign off s,
    let taken := s.settle.next + 2 + off.signExtend 16
    let f := s.settle.flags
    (s.readyFor (.beq ign off) → ∃ t, exec (.beq ign off) s = .next t ∧ t = s.latchNormal t.idex
      ∧ t.settle = { s.settle with next := if f.z = true then taken else s.settle.next + 1 })
    ∧ (s.readyFor (.bne ign off) → ∃ t, exec (.bne ign off) s = .next t ∧ t = s.latchNormal t.idex
      ∧ t.settle = { s.settle with next := if f.z = false then taken else s.settle.next + 1 })
    ∧ (s.readyFor (.blt ign off) → ∃ t, exec (.blt ign off) s = .next t ∧ t = s.latchNormal t.idex
      ∧ t.settle = { s.settle with next := if f.n ≠ f.v then taken else s.settle.next + 1 })
    ∧ (s.readyFor (.bgt ign off) → ∃ t, exec (.bgt ign off) s = .next t ∧ t = s.latchNormal t.idex
      ∧ t.settle = { s.settle with next := if f.z = false ∧ f.n = f.v then taken else s.settle.next + 1 })
    ∧ (s.readyFor (.bltu ign off) → ∃ t, exec (.bltu ign off) s = .next t ∧ t = s.latchNormal t.idex
      ∧ t.settle = { s.settle with next := if f.c = false then taken else s.settle.next + 1 })
    ∧ (s.readyFor (.bgtu ign off) → ∃ t, exec (.bgtu ign off) s = .next t ∧ t = s.latchNormal t.idex
      ∧ t.settle = { s.settle with next := if f.c = true ∧ f.z = false then taken else s.settle.next + 1 })

/-- The signed and unsigned reading of the branches after a comparison: the predicates of BEQ, BLT, BGT, BLTU and BGTU on
the flags of `A - B` compare A with B (the corner cases of 46_control_instructions.md R375 and R377 to R380). -/
def Obligations.BranchesAfterCompareCompare : Prop :=
  ∀ a b : Word,
    let f := flagsOfDifference a b
    (f.equal = true ↔ a = b) ∧ (f.notEqual = true ↔ a ≠ b)
    ∧ (f.lessSigned = true ↔ a.toInt < b.toInt) ∧ (f.greaterSigned = true ↔ b.toInt < a.toInt)
    ∧ (f.lowerUnsigned = true ↔ a.toNat < b.toNat) ∧ (f.higherUnsigned = true ↔ b.toNat < a.toNat)

/-- What the program-order reading means for the machine: of a running state none of whose next two states is halted, the
flags are there after one step, the calls of the host after two, the registers after three
(44_alu_instructions.md R300). The reading itself is the model's (log entry 14). -/
def Obligations.SettledStateIsReached : Prop :=
  ∀ s a b c : State, s.rc = 0 → s.isHalted = false → step s = .next a → a.isHalted = false → step a = .next b →
    b.isHalted = false → step b = .next c →
    a.flags = s.settle.flags ∧ b.data = s.settle.data ∧ c.regs = s.settle.regs

/-- The core gives every program the effect of executing its instructions one at a time in program order: each running
step with no HLT ahead either executes exactly the instruction in ID, by its pseudocode, or holds it and changes nothing,
or takes a jump to the address that comes next in program order and changes nothing else (the bubble it leaves in ID
counts as a NOP before that address, so that the reading of `next` is one less)
(70_reset_and_hazards.md R437, 43_pipeline.md R280, both the spec's own inferences). The program-order reading of a
pipeline is the model's (log entry 14). -/
def Obligations.StepsFollowProgramOrder : Prop :=
  ∀ s t : State, s.rc = 0 → s.noHaltInFlight = true → inDecoderTable s.idex.ctl → step s = .next t →
    (s.idex.ctl.j = true ∧ t.pc = s.settle.next ∧ t.ifid = IfId.bubble ∧ t.idex = IdEx.bubble
      ∧ t.settle = { s.settle with next := s.settle.next - 1 })
    ∨ (s.idex.ctl.j = false ∧ s.holds s.instrInId = true ∧ t.ifid = s.ifid ∧ t.settle = s.settle)
    ∨ (s.idex.ctl.j = false ∧ s.holds s.instrInId = false ∧ t.settle = programOrder s.instrInId s.settle)

/-! ## Reset, boot and the host -/

/-- The state at power-on (10_state.md R43, 70_reset_and_hazards.md R434), and the invariants of this file hold of it. -/
def Obligations.ResetStateIsQuiet : Prop :=
  (∀ r, State.reset.regs.read r = 0)
  ∧ State.reset.flags = { n := false, c := false, z := false, v := false } ∧ State.reset.pc = 0
  ∧ State.reset.ifid = IfId.bubble ∧ State.reset.idex = IdEx.bubble ∧ State.reset.exmem = ExMem.bubble
  ∧ State.reset.memwb = MemWb.bubble ∧ State.reset.rc = Config.resetCycles
  ∧ State.reset.latches = { aluA := 0, aluB := 0, aluF := 0 }
  ∧ State.reset.isResetting = true ∧ State.reset.isHalted = false ∧ State.reset.isStalling = false
  ∧ State.reset.wordsInTable ∧ State.reset.quietWhileResetting ∧ State.reset.pcRelations
  ∧ State.reset.imem.wf = true ∧ State.reset.hostKeepsRange = true

/-- `reset(kind)`: what both kinds set, that soft keeps the registers and hard zeroes them, and that nothing of the host's
changes; the hard one gives the core's power-on state (70_reset_and_hazards.md R430, R433, R434). -/
def Obligations.HostResetSetsTheResetState : Prop :=
  ∀ (s : State) (kind : ResetKind),
    let t := s.hostReset kind
    t.pc = 0 ∧ t.ifid = IfId.bubble ∧ t.idex = IdEx.bubble ∧ t.exmem = ExMem.bubble ∧ t.memwb = MemWb.bubble
    ∧ t.flags = { n := false, c := false, z := false, v := false } ∧ t.latches = { aluA := 0, aluB := 0, aluF := 0 }
    ∧ t.rc = Config.resetCycles ∧ t.imem = s.imem ∧ t.data = s.data
    ∧ (s.hostReset .soft).regs = s.regs ∧ (∀ r, (s.hostReset .hard).regs.read r = 0)
    ∧ (s.hostReset .hard).snapshot = State.reset.snapshot

/-- A resetting step lowers the counter by one, holds the PC at 0 and the boundary registers at bubbles, and does nothing
else (70_reset_and_hazards.md R432). -/
def Obligations.ResettingStepOnlyCounts : Prop :=
  ∀ s : State, 0 < s.rc →
    step s = .next { s with rc := s.rc - 1, pc := 0, ifid := { ins := 0 }, idex := IdEx.bubble,
                            exmem := ExMem.bubble, memwb := MemWb.bubble }

/-- After a reset the core resets for RESET_CYCLES steps, whatever that number is; the next step fetches address 0, and
the one after it runs the instruction there (70_reset_and_hazards.md R431, R432, R435). -/
def Obligations.ProgramStartsAtAddressZero : Prop :=
  ∀ (s : State) (kind : ResetKind),
    (∀ n, n < Config.resetCycles → ∃ t, core.run n (s.hostReset kind) = .next t ∧ t.isResetting = true)
    ∧ core.run Config.resetCycles (s.hostReset kind) = .next { s.hostReset kind with rc := 0 }
    ∧ ∃ t, core.run (Config.resetCycles + 1) (s.hostReset kind) = .next t ∧ t.ifid.ins = s.fetch 0 ∧ t.pc = 1
        ∧ t.regs = (s.hostReset kind).regs ∧ step t = exec (decode (s.fetch 0)) t

/-- `run()` steps until halted: it returns at once when halted, and when it returns it is in a state that so many steps
reach and that is halted (43_pipeline.md R276). -/
def Obligations.RunStepsUntilHalted : Prop :=
  ∀ s t : State,
    (s.isHalted = true → ∀ fuel, s.runFor fuel = .halted s)
    ∧ (s.runsTo t ↔ t.isHalted = true ∧ ∃ n, core.run n s = .next t)

/-- The register accessors: a read gives the register the instructions use and has no effect, a write changes that register
alone, and misuse is refused (60_exceptions.md R408, R411). -/
def Obligations.RegisterAccessorsRefuseMisuse : Prop :=
  ∀ (s : State) (i v : Nat),
    (8 ≤ i → s.getRegister i = .error (.registerIndexOutOfRange i)
      ∧ s.setRegister i v = .error (.registerIndexOutOfRange i))
    ∧ (i < 8 → s.getRegister i = .ok (s.regs.read (BitVec.ofNat 3 i)))
    ∧ (i < 8 → 2 ^ 16 ≤ v → s.setRegister i v = .error (.registerValueOutOfRange v))
    ∧ (i < 8 → v < 2 ^ 16 → ∃ t, s.setRegister i v = .ok t ∧ t = { s with regs := t.regs }
        ∧ t.regs.read (BitVec.ofNat 3 i) = BitVec.ofNat 16 v
        ∧ ∀ j, j < 8 → t.getRegister j = if j = i then .ok (BitVec.ofNat 16 v) else s.getRegister j)

/-- A snapshot restored gives the core's state back, and leaves the host's side alone (60_exceptions.md R409,
10_state.md R44). -/
def Obligations.SnapshotRoundTrips : Prop :=
  ∀ s u : State, (u.restore s.snapshot).snapshot = s.snapshot ∧ s.restore s.snapshot = s
    ∧ (u.restore s.snapshot).imem = u.imem ∧ (u.restore s.snapshot).data = u.data

/-- `Fetch(a)` is the host's array where it reaches and 0x0000 past its end, which decodes as NOP; no step changes the
array (20_memory.md R71, R83). The canonical list that holds the array is the model's (log entry 5). -/
def Obligations.FetchReadsTheHostsArray : Prop :=
  (∀ (s : State) (ws : List Word) (a : Word),
    (s.setInstructions ws).fetch a = (if h : a.toNat < ws.length then ws[a.toNat] else 0)
    ∧ (s.setInstructions ws).imem.wf = true)
  ∧ decode 0 = .nop 0
  ∧ ∀ s t : State, step s = .next t → t.imem = s.imem

/-! ## Invariants -/

/-- Every step keeps every control word in flight one of the decoder's (40_decoder.md R175, 10_state.md R40). -/
def Obligations.StepKeepsWordsInTheTable : Prop :=
  ∀ s t : State, s.wordsInTable → step s = .next t → t.wordsInTable

/-- Every step keeps the PC relations: the instruction in ID is the word at the PC less 1, the instruction in EX the word
at the PC less 2 (43_pipeline.md R279, the spec's own inference from R271 to R273). -/
def Obligations.StepKeepsPcRelations : Prop :=
  ∀ s t : State, s.pcRelations → step s = .next t → t.pcRelations

/-- Every step keeps the core quiet while it resets, the instruction memory in its canonical form and the reset counter
within RESET_CYCLES (70_reset_and_hazards.md R432, 10_state.md R38). -/
def Obligations.StepKeepsResetQuiet : Prop :=
  ∀ s t : State, s.quietWhileResetting → s.imem.wf = true → s.rc ≤ Config.resetCycles → step s = .next t →
    t.quietWhileResetting ∧ t.imem.wf = true ∧ t.rc ≤ Config.resetCycles
end

