-- ==== Sys2Proof/Laws/Encoding.lean ====
section
/-! SUPPORT. The fields of an encoded word, format by format (30_encoding.md R102, R103), and a word put together again
from its fields. -/

namespace Sys2Proof

/-! ## A word as a number -/

theorem toNat_formatZ (op : Opcode) (ign : BitVec 11) :
    (formatZ op ign).toNat = op.toNat * 2 ^ 11 + ign.toNat := by
  unfold formatZ
  erw [BitVec.toNat_append]
  rw [← Nat.shiftLeft_add_eq_or_of_lt (by omega), Nat.shiftLeft_eq]

theorem toNat_formatRRR (op : Opcode) (c a b : RegIdx) (low : BitVec 2) :
    (formatRRR op c a b low).toNat
      = op.toNat * 2 ^ 11 + c.toNat * 2 ^ 8 + a.toNat * 2 ^ 5 + b.toNat * 2 ^ 2 + low.toNat := by
  unfold formatRRR
  erw [BitVec.toNat_append, BitVec.toNat_append, BitVec.toNat_append, BitVec.toNat_append]
  rw [← Nat.shiftLeft_add_eq_or_of_lt (by omega), ← Nat.shiftLeft_add_eq_or_of_lt (by omega),
    ← Nat.shiftLeft_add_eq_or_of_lt (by omega), ← Nat.shiftLeft_add_eq_or_of_lt (by omega)]
  simp only [Nat.shiftLeft_eq]
  omega

theorem toNat_formatRRI (op : Opcode) (c a : RegIdx) (imm : BitVec 5) :
    (formatRRI op c a imm).toNat = op.toNat * 2 ^ 11 + c.toNat * 2 ^ 8 + a.toNat * 2 ^ 5 + imm.toNat := by
  unfold formatRRI
  erw [BitVec.toNat_append, BitVec.toNat_append, BitVec.toNat_append]
  rw [← Nat.shiftLeft_add_eq_or_of_lt (by omega), ← Nat.shiftLeft_add_eq_or_of_lt (by omega),
    ← Nat.shiftLeft_add_eq_or_of_lt (by omega)]
  simp only [Nat.shiftLeft_eq]
  omega

theorem toNat_formatRI8 (op : Opcode) (c : RegIdx) (imm : BitVec 8) :
    (formatRI8 op c imm).toNat = op.toNat * 2 ^ 11 + c.toNat * 2 ^ 8 + imm.toNat := by
  unfold formatRI8
  erw [BitVec.toNat_append, BitVec.toNat_append]
  rw [← Nat.shiftLeft_add_eq_or_of_lt (by omega), ← Nat.shiftLeft_add_eq_or_of_lt (by omega)]
  simp only [Nat.shiftLeft_eq]
  omega

theorem toNat_formatJ10 (op : Opcode) (ign : BitVec 1) (off : BitVec 10) :
    (formatJ10 op ign off).toNat = op.toNat * 2 ^ 11 + ign.toNat * 2 ^ 10 + off.toNat := by
  unfold formatJ10
  erw [BitVec.toNat_append, BitVec.toNat_append]
  rw [← Nat.shiftLeft_add_eq_or_of_lt (by omega), ← Nat.shiftLeft_add_eq_or_of_lt (by omega)]
  simp only [Nat.shiftLeft_eq]
  omega

theorem formatST_eq (op : Opcode) (b a : RegIdx) (imm : BitVec 5) :
    formatST op b a imm = formatRRR op (imm.extractLsb' 2 3) a b (imm.extractLsb' 0 2) := rfl

/-! ## The fields of each format -/

@[simp] theorem opcodeOf_formatZ (op : Opcode) (ign : BitVec 11) : opcodeOf (formatZ op ign) = op := by
  apply BitVec.eq_of_toNat_eq
  simp only [opcodeOf, BitVec.extractLsb'_toNat, toNat_formatZ, Nat.shiftRight_eq_div_pow]
  omega

@[simp] theorem fieldLow11_formatZ (op : Opcode) (ign : BitVec 11) : fieldLow11 (formatZ op ign) = ign := by
  apply BitVec.eq_of_toNat_eq
  simp only [fieldLow11, BitVec.extractLsb'_toNat, toNat_formatZ, Nat.shiftRight_eq_div_pow]
  omega

section RRR
variable (op : Opcode) (c a b : RegIdx) (low : BitVec 2)

@[simp] theorem opcodeOf_formatRRR : opcodeOf (formatRRR op c a b low) = op := by
  apply BitVec.eq_of_toNat_eq
  simp only [opcodeOf, BitVec.extractLsb'_toNat, toNat_formatRRR, Nat.shiftRight_eq_div_pow]
  omega

@[simp] theorem fieldC_formatRRR : fieldC (formatRRR op c a b low) = c := by
  apply BitVec.eq_of_toNat_eq
  simp only [fieldC, BitVec.extractLsb'_toNat, toNat_formatRRR, Nat.shiftRight_eq_div_pow]
  omega

@[simp] theorem fieldA_formatRRR : fieldA (formatRRR op c a b low) = a := by
  apply BitVec.eq_of_toNat_eq
  simp only [fieldA, BitVec.extractLsb'_toNat, toNat_formatRRR, Nat.shiftRight_eq_div_pow]
  omega

@[simp] theorem fieldB_formatRRR : fieldB (formatRRR op c a b low) = b := by
  apply BitVec.eq_of_toNat_eq
  simp only [fieldB, BitVec.extractLsb'_toNat, toNat_formatRRR, Nat.shiftRight_eq_div_pow]
  omega

@[simp] theorem fieldLow2_formatRRR : fieldLow2 (formatRRR op c a b low) = low := by
  apply BitVec.eq_of_toNat_eq
  simp only [fieldLow2, BitVec.extractLsb'_toNat, toNat_formatRRR, Nat.shiftRight_eq_div_pow]
  omega

end RRR

section RRI
variable (op : Opcode) (c a : RegIdx) (imm : BitVec 5)

@[simp] theorem opcodeOf_formatRRI : opcodeOf (formatRRI op c a imm) = op := by
  apply BitVec.eq_of_toNat_eq
  simp only [opcodeOf, BitVec.extractLsb'_toNat, toNat_formatRRI, Nat.shiftRight_eq_div_pow]
  omega

@[simp] theorem fieldC_formatRRI : fieldC (formatRRI op c a imm) = c := by
  apply BitVec.eq_of_toNat_eq
  simp only [fieldC, BitVec.extractLsb'_toNat, toNat_formatRRI, Nat.shiftRight_eq_div_pow]
  omega

@[simp] theorem fieldA_formatRRI : fieldA (formatRRI op c a imm) = a := by
  apply BitVec.eq_of_toNat_eq
  simp only [fieldA, BitVec.extractLsb'_toNat, toNat_formatRRI, Nat.shiftRight_eq_div_pow]
  omega

@[simp] theorem fieldImm5_formatRRI : fieldImm5 (formatRRI op c a imm) = imm := by
  apply BitVec.eq_of_toNat_eq
  simp only [fieldImm5, BitVec.extractLsb'_toNat, toNat_formatRRI, Nat.shiftRight_eq_div_pow]
  omega

end RRI

section RI8
variable (op : Opcode) (c : RegIdx) (imm : BitVec 8)

@[simp] theorem opcodeOf_formatRI8 : opcodeOf (formatRI8 op c imm) = op := by
  apply BitVec.eq_of_toNat_eq
  simp only [opcodeOf, BitVec.extractLsb'_toNat, toNat_formatRI8, Nat.shiftRight_eq_div_pow]
  omega

@[simp] theorem fieldC_formatRI8 : fieldC (formatRI8 op c imm) = c := by
  apply BitVec.eq_of_toNat_eq
  simp only [fieldC, BitVec.extractLsb'_toNat, toNat_formatRI8, Nat.shiftRight_eq_div_pow]
  omega

@[simp] theorem fieldImm8_formatRI8 : fieldImm8 (formatRI8 op c imm) = imm := by
  apply BitVec.eq_of_toNat_eq
  simp only [fieldImm8, BitVec.extractLsb'_toNat, toNat_formatRI8, Nat.shiftRight_eq_div_pow]
  omega

end RI8

section J10
variable (op : Opcode) (ign : BitVec 1) (off : BitVec 10)

@[simp] theorem opcodeOf_formatJ10 : opcodeOf (formatJ10 op ign off) = op := by
  apply BitVec.eq_of_toNat_eq
  simp only [opcodeOf, BitVec.extractLsb'_toNat, toNat_formatJ10, Nat.shiftRight_eq_div_pow]
  omega

@[simp] theorem fieldBit10_formatJ10 : fieldBit10 (formatJ10 op ign off) = ign := by
  apply BitVec.eq_of_toNat_eq
  simp only [fieldBit10, BitVec.extractLsb'_toNat, toNat_formatJ10, Nat.shiftRight_eq_div_pow]
  omega

@[simp] theorem fieldOff10_formatJ10 : fieldOff10 (formatJ10 op ign off) = off := by
  apply BitVec.eq_of_toNat_eq
  simp only [fieldOff10, BitVec.extractLsb'_toNat, toNat_formatJ10, Nat.shiftRight_eq_div_pow]
  omega

end J10

section ST
variable (op : Opcode) (b a : RegIdx) (imm : BitVec 5)

@[simp] theorem opcodeOf_formatST : opcodeOf (formatST op b a imm) = op := by
  rw [formatST_eq, opcodeOf_formatRRR]

@[simp] theorem fieldA_formatST : fieldA (formatST op b a imm) = a := by
  rw [formatST_eq, fieldA_formatRRR]

@[simp] theorem fieldB_formatST : fieldB (formatST op b a imm) = b := by
  rw [formatST_eq, fieldB_formatRRR]

@[simp] theorem fieldSimm_formatST : fieldSimm (formatST op b a imm) = imm := by
  rw [formatST_eq, fieldSimm, fieldC_formatRRR, fieldLow2_formatRRR]
  apply BitVec.eq_of_toNat_eq
  erw [BitVec.toNat_append]
  rw [← Nat.shiftLeft_add_eq_or_of_lt (by omega)]
  simp only [BitVec.extractLsb'_toNat, Nat.shiftLeft_eq, Nat.shiftRight_eq_div_pow]
  omega

end ST

/-! ## A word put together again from its fields -/

section Rejoin
variable (w : Word)

theorem formatZ_fields : formatZ (opcodeOf w) (fieldLow11 w) = w := by
  apply BitVec.eq_of_toNat_eq
  rw [toNat_formatZ]
  simp only [opcodeOf, fieldLow11, BitVec.extractLsb'_toNat, Nat.shiftRight_eq_div_pow]
  omega

theorem formatRRR_fields : formatRRR (opcodeOf w) (fieldC w) (fieldA w) (fieldB w) (fieldLow2 w) = w := by
  apply BitVec.eq_of_toNat_eq
  rw [toNat_formatRRR]
  simp only [opcodeOf, fieldC, fieldA, fieldB, fieldLow2, BitVec.extractLsb'_toNat, Nat.shiftRight_eq_div_pow]
  omega

theorem formatRRI_fields : formatRRI (opcodeOf w) (fieldC w) (fieldA w) (fieldImm5 w) = w := by
  apply BitVec.eq_of_toNat_eq
  rw [toNat_formatRRI]
  simp only [opcodeOf, fieldC, fieldA, fieldImm5, BitVec.extractLsb'_toNat, Nat.shiftRight_eq_div_pow]
  omega

theorem formatRI8_fields : formatRI8 (opcodeOf w) (fieldC w) (fieldImm8 w) = w := by
  apply BitVec.eq_of_toNat_eq
  rw [toNat_formatRI8]
  simp only [opcodeOf, fieldC, fieldImm8, BitVec.extractLsb'_toNat, Nat.shiftRight_eq_div_pow]
  omega

theorem formatJ10_fields : formatJ10 (opcodeOf w) (fieldBit10 w) (fieldOff10 w) = w := by
  apply BitVec.eq_of_toNat_eq
  rw [toNat_formatJ10]
  simp only [opcodeOf, fieldBit10, fieldOff10, BitVec.extractLsb'_toNat, Nat.shiftRight_eq_div_pow]
  omega

theorem formatST_fields : formatST (opcodeOf w) (fieldB w) (fieldA w) (fieldSimm w) = w := by
  rw [formatST_eq]
  have hc : (fieldSimm w).extractLsb' 2 3 = fieldC w := by
    apply BitVec.eq_of_toNat_eq
    unfold fieldSimm
    erw [BitVec.extractLsb'_toNat, BitVec.toNat_append]
    rw [← Nat.shiftLeft_add_eq_or_of_lt (by omega), Nat.shiftLeft_eq, Nat.shiftRight_eq_div_pow]
    omega
  have hl : (fieldSimm w).extractLsb' 0 2 = fieldLow2 w := by
    apply BitVec.eq_of_toNat_eq
    unfold fieldSimm
    erw [BitVec.extractLsb'_toNat, BitVec.toNat_append]
    rw [← Nat.shiftLeft_add_eq_or_of_lt (by omega), Nat.shiftLeft_eq, Nat.shiftRight_eq_div_pow]
    omega
  rw [hc, hl, formatRRR_fields]

end Rejoin

end Sys2Proof
end

