-- ==== Sys2Proof/Laws/State.lean ====
section
/-! SUPPORT. One lemma per field of State per update, true by rfl, so that no proof unfolds a record update. -/

namespace Sys2Proof.Machine

/-! ### retire -/

@[simp] theorem State.retire_regs (s : State) :
    s.retire.regs = s.wbRegs := rfl
@[simp] theorem State.retire_flags (s : State) :
    s.retire.flags = s.exFlags := rfl
@[simp] theorem State.retire_pc (s : State) :
    s.retire.pc = s.pc := rfl
@[simp] theorem State.retire_ifid (s : State) :
    s.retire.ifid = s.ifid := rfl
@[simp] theorem State.retire_idex (s : State) :
    s.retire.idex = s.idex := rfl
@[simp] theorem State.retire_exmem (s : State) :
    s.retire.exmem = { ctl := s.idex.ctl, y := s.exY, storeOp := s.idex.storeOp, selC := s.idex.selC } := rfl
@[simp] theorem State.retire_memwb (s : State) :
    s.retire.memwb = { ctl := s.exmem.ctl, y := s.exmem.y, data := s.memPhase.1, selC := s.exmem.selC } := rfl
@[simp] theorem State.retire_rc (s : State) :
    s.retire.rc = s.rc := rfl
@[simp] theorem State.retire_latches (s : State) :
    s.retire.latches = s.exAlu.latches := rfl
@[simp] theorem State.retire_imem (s : State) :
    s.retire.imem = s.imem := rfl
@[simp] theorem State.retire_data (s : State) :
    s.retire.data = s.memPhase.2 := rfl

/-! ### latchNormal -/

@[simp] theorem State.latchNormal_regs (s : State) (k : IdEx) :
    (s.latchNormal k).regs = s.wbRegs := rfl
@[simp] theorem State.latchNormal_flags (s : State) (k : IdEx) :
    (s.latchNormal k).flags = s.exFlags := rfl
@[simp] theorem State.latchNormal_pc (s : State) (k : IdEx) :
    (s.latchNormal k).pc = s.pc + 1 := rfl
@[simp] theorem State.latchNormal_ifid (s : State) (k : IdEx) :
    (s.latchNormal k).ifid = { ins := s.fetch s.pc } := rfl
@[simp] theorem State.latchNormal_idex (s : State) (k : IdEx) :
    (s.latchNormal k).idex = k := rfl
@[simp] theorem State.latchNormal_exmem (s : State) (k : IdEx) :
    (s.latchNormal k).exmem = { ctl := s.idex.ctl, y := s.exY, storeOp := s.idex.storeOp, selC := s.idex.selC } := rfl
@[simp] theorem State.latchNormal_memwb (s : State) (k : IdEx) :
    (s.latchNormal k).memwb = { ctl := s.exmem.ctl, y := s.exmem.y, data := s.memPhase.1, selC := s.exmem.selC } := rfl
@[simp] theorem State.latchNormal_rc (s : State) (k : IdEx) :
    (s.latchNormal k).rc = s.rc := rfl
@[simp] theorem State.latchNormal_latches (s : State) (k : IdEx) :
    (s.latchNormal k).latches = s.exAlu.latches := rfl
@[simp] theorem State.latchNormal_imem (s : State) (k : IdEx) :
    (s.latchNormal k).imem = s.imem := rfl
@[simp] theorem State.latchNormal_data (s : State) (k : IdEx) :
    (s.latchNormal k).data = s.memPhase.2 := rfl

/-! ### latchStall -/

@[simp] theorem State.latchStall_regs (s : State) :
    s.latchStall.regs = s.wbRegs := rfl
@[simp] theorem State.latchStall_flags (s : State) :
    s.latchStall.flags = s.exFlags := rfl
@[simp] theorem State.latchStall_pc (s : State) :
    s.latchStall.pc = s.pc := rfl
@[simp] theorem State.latchStall_ifid (s : State) :
    s.latchStall.ifid = s.ifid := rfl
@[simp] theorem State.latchStall_idex (s : State) :
    s.latchStall.idex = IdEx.bubble := rfl
@[simp] theorem State.latchStall_exmem (s : State) :
    s.latchStall.exmem = { ctl := s.idex.ctl, y := s.exY, storeOp := s.idex.storeOp, selC := s.idex.selC } := rfl
@[simp] theorem State.latchStall_memwb (s : State) :
    s.latchStall.memwb = { ctl := s.exmem.ctl, y := s.exmem.y, data := s.memPhase.1, selC := s.exmem.selC } := rfl
@[simp] theorem State.latchStall_rc (s : State) :
    s.latchStall.rc = s.rc := rfl
@[simp] theorem State.latchStall_latches (s : State) :
    s.latchStall.latches = s.exAlu.latches := rfl
@[simp] theorem State.latchStall_imem (s : State) :
    s.latchStall.imem = s.imem := rfl
@[simp] theorem State.latchStall_data (s : State) :
    s.latchStall.data = s.memPhase.2 := rfl

/-! ### latchFlush -/

@[simp] theorem State.latchFlush_regs (s : State) :
    s.latchFlush.regs = s.wbRegs := rfl
@[simp] theorem State.latchFlush_flags (s : State) :
    s.latchFlush.flags = s.exFlags := rfl
@[simp] theorem State.latchFlush_pc (s : State) :
    s.latchFlush.pc = s.jumpTarget := rfl
@[simp] theorem State.latchFlush_ifid (s : State) :
    s.latchFlush.ifid = IfId.bubble := rfl
@[simp] theorem State.latchFlush_idex (s : State) :
    s.latchFlush.idex = IdEx.bubble := rfl
@[simp] theorem State.latchFlush_exmem (s : State) :
    s.latchFlush.exmem = { ctl := s.idex.ctl, y := s.exY, storeOp := s.idex.storeOp, selC := s.idex.selC } := rfl
@[simp] theorem State.latchFlush_memwb (s : State) :
    s.latchFlush.memwb = { ctl := s.exmem.ctl, y := s.exmem.y, data := s.memPhase.1, selC := s.exmem.selC } := rfl
@[simp] theorem State.latchFlush_rc (s : State) :
    s.latchFlush.rc = s.rc := rfl
@[simp] theorem State.latchFlush_latches (s : State) :
    s.latchFlush.latches = s.exAlu.latches := rfl
@[simp] theorem State.latchFlush_imem (s : State) :
    s.latchFlush.imem = s.imem := rfl
@[simp] theorem State.latchFlush_data (s : State) :
    s.latchFlush.data = s.memPhase.2 := rfl

/-! ### resettingStep -/

@[simp] theorem State.resettingStep_regs (s : State) :
    s.resettingStep.regs = s.regs := rfl
@[simp] theorem State.resettingStep_flags (s : State) :
    s.resettingStep.flags = s.flags := rfl
@[simp] theorem State.resettingStep_pc (s : State) :
    s.resettingStep.pc = 0 := rfl
@[simp] theorem State.resettingStep_ifid (s : State) :
    s.resettingStep.ifid = IfId.bubble := rfl
@[simp] theorem State.resettingStep_idex (s : State) :
    s.resettingStep.idex = IdEx.bubble := rfl
@[simp] theorem State.resettingStep_exmem (s : State) :
    s.resettingStep.exmem = ExMem.bubble := rfl
@[simp] theorem State.resettingStep_memwb (s : State) :
    s.resettingStep.memwb = MemWb.bubble := rfl
@[simp] theorem State.resettingStep_rc (s : State) :
    s.resettingStep.rc = s.rc - 1 := rfl
@[simp] theorem State.resettingStep_latches (s : State) :
    s.resettingStep.latches = s.latches := rfl
@[simp] theorem State.resettingStep_imem (s : State) :
    s.resettingStep.imem = s.imem := rfl
@[simp] theorem State.resettingStep_data (s : State) :
    s.resettingStep.data = s.data := rfl

/-! ### withFetchWord -/

@[simp] theorem State.withFetchWord_regs (s : State) (nbits w : Nat) :
    (s.withFetchWord nbits w).regs = s.regs := rfl
@[simp] theorem State.withFetchWord_flags (s : State) (nbits w : Nat) :
    (s.withFetchWord nbits w).flags = s.flags := rfl
@[simp] theorem State.withFetchWord_pc (s : State) (nbits w : Nat) :
    (s.withFetchWord nbits w).pc = s.pc + 1 := rfl
@[simp] theorem State.withFetchWord_ifid (s : State) (nbits w : Nat) :
    (s.withFetchWord nbits w).ifid = { ins := BitVec.ofNat 16 (w % 2 ^ nbits) } := rfl
@[simp] theorem State.withFetchWord_idex (s : State) (nbits w : Nat) :
    (s.withFetchWord nbits w).idex = IdEx.bubble := rfl
@[simp] theorem State.withFetchWord_exmem (s : State) (nbits w : Nat) :
    (s.withFetchWord nbits w).exmem = ExMem.bubble := rfl
@[simp] theorem State.withFetchWord_memwb (s : State) (nbits w : Nat) :
    (s.withFetchWord nbits w).memwb = s.memwb := rfl
@[simp] theorem State.withFetchWord_rc (s : State) (nbits w : Nat) :
    (s.withFetchWord nbits w).rc = 0 := rfl
@[simp] theorem State.withFetchWord_latches (s : State) (nbits w : Nat) :
    (s.withFetchWord nbits w).latches = s.latches := rfl
@[simp] theorem State.withFetchWord_imem (s : State) (nbits w : Nat) :
    (s.withFetchWord nbits w).imem = s.imem.write s.pc (BitVec.ofNat 16 (w % 2 ^ nbits)) := rfl
@[simp] theorem State.withFetchWord_data (s : State) (nbits w : Nat) :
    (s.withFetchWord nbits w).data = s.data := rfl

/-! ### hostReset -/

@[simp] theorem State.hostReset_flags (s : State) (kind : ResetKind) :
    (s.hostReset kind).flags = Flags.clear := rfl
@[simp] theorem State.hostReset_pc (s : State) (kind : ResetKind) :
    (s.hostReset kind).pc = 0 := rfl
@[simp] theorem State.hostReset_ifid (s : State) (kind : ResetKind) :
    (s.hostReset kind).ifid = IfId.bubble := rfl
@[simp] theorem State.hostReset_idex (s : State) (kind : ResetKind) :
    (s.hostReset kind).idex = IdEx.bubble := rfl
@[simp] theorem State.hostReset_exmem (s : State) (kind : ResetKind) :
    (s.hostReset kind).exmem = ExMem.bubble := rfl
@[simp] theorem State.hostReset_memwb (s : State) (kind : ResetKind) :
    (s.hostReset kind).memwb = MemWb.bubble := rfl
@[simp] theorem State.hostReset_rc (s : State) (kind : ResetKind) :
    (s.hostReset kind).rc = Config.resetCycles := rfl
@[simp] theorem State.hostReset_latches (s : State) (kind : ResetKind) :
    (s.hostReset kind).latches = AluLatches.zero := rfl
@[simp] theorem State.hostReset_imem (s : State) (kind : ResetKind) :
    (s.hostReset kind).imem = s.imem := rfl
@[simp] theorem State.hostReset_data (s : State) (kind : ResetKind) :
    (s.hostReset kind).data = s.data := rfl
@[simp] theorem State.hostReset_soft_regs (s : State) : (s.hostReset .soft).regs = s.regs := rfl
@[simp] theorem State.hostReset_hard_regs (s : State) : (s.hostReset .hard).regs = Regs.zero := rfl

/-! ### setInstructions -/

@[simp] theorem State.setInstructions_regs (s : State) (ws : List Word) :
    (s.setInstructions ws).regs = s.regs := rfl
@[simp] theorem State.setInstructions_flags (s : State) (ws : List Word) :
    (s.setInstructions ws).flags = s.flags := rfl
@[simp] theorem State.setInstructions_pc (s : State) (ws : List Word) :
    (s.setInstructions ws).pc = s.pc := rfl
@[simp] theorem State.setInstructions_ifid (s : State) (ws : List Word) :
    (s.setInstructions ws).ifid = s.ifid := rfl
@[simp] theorem State.setInstructions_idex (s : State) (ws : List Word) :
    (s.setInstructions ws).idex = s.idex := rfl
@[simp] theorem State.setInstructions_exmem (s : State) (ws : List Word) :
    (s.setInstructions ws).exmem = s.exmem := rfl
@[simp] theorem State.setInstructions_memwb (s : State) (ws : List Word) :
    (s.setInstructions ws).memwb = s.memwb := rfl
@[simp] theorem State.setInstructions_rc (s : State) (ws : List Word) :
    (s.setInstructions ws).rc = s.rc := rfl
@[simp] theorem State.setInstructions_latches (s : State) (ws : List Word) :
    (s.setInstructions ws).latches = s.latches := rfl
@[simp] theorem State.setInstructions_imem (s : State) (ws : List Word) :
    (s.setInstructions ws).imem = Memory.ofWords ws := rfl
@[simp] theorem State.setInstructions_data (s : State) (ws : List Word) :
    (s.setInstructions ws).data = s.data := rfl

/-! ### setAnswers -/

@[simp] theorem State.setAnswers_regs (s : State) (ns : List Nat) :
    (s.setAnswers ns).regs = s.regs := rfl
@[simp] theorem State.setAnswers_flags (s : State) (ns : List Nat) :
    (s.setAnswers ns).flags = s.flags := rfl
@[simp] theorem State.setAnswers_pc (s : State) (ns : List Nat) :
    (s.setAnswers ns).pc = s.pc := rfl
@[simp] theorem State.setAnswers_ifid (s : State) (ns : List Nat) :
    (s.setAnswers ns).ifid = s.ifid := rfl
@[simp] theorem State.setAnswers_idex (s : State) (ns : List Nat) :
    (s.setAnswers ns).idex = s.idex := rfl
@[simp] theorem State.setAnswers_exmem (s : State) (ns : List Nat) :
    (s.setAnswers ns).exmem = s.exmem := rfl
@[simp] theorem State.setAnswers_memwb (s : State) (ns : List Nat) :
    (s.setAnswers ns).memwb = s.memwb := rfl
@[simp] theorem State.setAnswers_rc (s : State) (ns : List Nat) :
    (s.setAnswers ns).rc = s.rc := rfl
@[simp] theorem State.setAnswers_latches (s : State) (ns : List Nat) :
    (s.setAnswers ns).latches = s.latches := rfl
@[simp] theorem State.setAnswers_imem (s : State) (ns : List Nat) :
    (s.setAnswers ns).imem = s.imem := rfl
@[simp] theorem State.setAnswers_data (s : State) (ns : List Nat) :
    (s.setAnswers ns).data = { s.data with answers := ns } := rfl

/-! ### restore -/

@[simp] theorem State.restore_regs (s : State) (p : Snapshot) :
    (s.restore p).regs = p.regs := rfl
@[simp] theorem State.restore_flags (s : State) (p : Snapshot) :
    (s.restore p).flags = p.flags := rfl
@[simp] theorem State.restore_pc (s : State) (p : Snapshot) :
    (s.restore p).pc = p.pc := rfl
@[simp] theorem State.restore_ifid (s : State) (p : Snapshot) :
    (s.restore p).ifid = p.ifid := rfl
@[simp] theorem State.restore_idex (s : State) (p : Snapshot) :
    (s.restore p).idex = p.idex := rfl
@[simp] theorem State.restore_exmem (s : State) (p : Snapshot) :
    (s.restore p).exmem = p.exmem := rfl
@[simp] theorem State.restore_memwb (s : State) (p : Snapshot) :
    (s.restore p).memwb = p.memwb := rfl
@[simp] theorem State.restore_rc (s : State) (p : Snapshot) :
    (s.restore p).rc = p.rc := rfl
@[simp] theorem State.restore_latches (s : State) (p : Snapshot) :
    (s.restore p).latches = p.latches := rfl
@[simp] theorem State.restore_imem (s : State) (p : Snapshot) :
    (s.restore p).imem = s.imem := rfl
@[simp] theorem State.restore_data (s : State) (p : Snapshot) :
    (s.restore p).data = s.data := rfl

end Sys2Proof.Machine
end

