-- ==== Sys2Proof/Laws/Ops.lean ====
section
/-! SUPPORT. For each shared operation, once, everything it can do; later proofs cite these instead of unfolding. -/

namespace Sys2Proof.Machine

/-! ## Registers and bytes -/

@[simp] theorem Regs.read_write_same (r : Regs) (i : RegIdx) (v : Word) : (r.write i v).read i = v := by
  simp [Regs.read, Regs.write]

theorem Regs.read_write_other (r : Regs) {i j : RegIdx} (v : Word) (h : i ≠ j) : (r.write i v).read j = r.read j := by
  have hn : i.toNat ≠ j.toNat := fun he => h (BitVec.eq_of_toNat_eq he)
  simp [Regs.read, Regs.write, hn]

theorem Regs.read_write (r : Regs) (i j : RegIdx) (v : Word) :
    (r.write i v).read j = if i = j then v else r.read j := by
  split
  · subst_vars; exact Regs.read_write_same r _ v
  · exact Regs.read_write_other r v (by assumption)

/-- Two register files are equal when every register reads alike. -/
theorem Regs.ext_read {r r' : Regs} (h : ∀ i, r.read i = r'.read i) : r = r' := by
  apply Vector.ext
  intro k hk
  have := h (BitVec.ofNat 3 k)
  simp only [Regs.read, BitVec.toNat_ofNat] at this
  simpa [Nat.mod_eq_of_lt hk] using this

@[simp] theorem Regs.read_zero (i : RegIdx) : Regs.zero.read i = 0 := by simp [Regs.read, Regs.zero]

/-- Writing back what a register holds changes nothing. -/
@[simp] theorem Regs.write_read_self (r : Regs) (i : RegIdx) : r.write i (r.read i) = r := by
  apply Regs.ext_read
  intro j
  rw [Regs.read_write]
  split
  · subst_vars; rfl
  · rfl

/-- Both byte lanes: the merged value is the new one. -/
theorem mergeBytes_both {w : Ctl} (hl : w.wrl = true) (hh : w.wrh = true) (new old : Word) :
    mergeBytes w new old = new := by
  have hm : byteMask w = BitVec.allOnes 16 := by simp only [byteMask, hl, hh]; decide
  rw [mergeBytes, hm, BitVec.and_allOnes, BitVec.not_allOnes, BitVec.and_zero, BitVec.or_zero]

/-- No byte lane: the merged value is the old one. -/
theorem mergeBytes_none {w : Ctl} (hl : w.wrl = false) (hh : w.wrh = false) (new old : Word) :
    mergeBytes w new old = old := by
  have hm : byteMask w = 0#16 := by simp only [byteMask, hl, hh]; decide
  rw [mergeBytes, hm, BitVec.and_zero, BitVec.not_zero, BitVec.and_allOnes, BitVec.zero_or]

/-- The write port, register by register. -/
theorem Regs.read_writeBack (r : Regs) (w : Ctl) (d : RegIdx) (y data : Word) (i : RegIdx) :
    (r.writeBack w d y data).read i
      = if w.wben = true ∧ d = i then mergeBytes w (if w.writeBackSrc then data else y) (r.read i) else r.read i := by
  unfold Regs.writeBack
  by_cases hw : w.wben = true
  · simp only [hw, if_true, true_and, Regs.read_write]
    split
    · subst_vars; rfl
    · rfl
  · simp [hw]

/-- An instruction that writes register `i` in the hazard unit's sense is one that changes it through its byte lanes; one
that does not leaves it alone (42_hazard_unit.md R231). -/
theorem Regs.read_writeBack_of_not_writesReg (r : Regs) {w : Ctl} {d i : RegIdx} (y data : Word)
    (h : writesReg w d i = false) : (r.writeBack w d y data).read i = r.read i := by
  rw [Regs.read_writeBack]
  split
  · rename_i hw
    obtain ⟨hwb, hd⟩ := hw
    simp only [writesReg, hwb, hd, beq_self_eq_true, Bool.and_true, Bool.true_and, Bool.or_eq_false_iff] at h
    exact mergeBytes_none h.1 h.2 _ _
  · rfl

theorem Regs.read_writeBack_of_writesReg (r : Regs) {w : Ctl} {d i : RegIdx} (y data : Word)
    (h : writesReg w d i = true) :
    (r.writeBack w d y data).read i = mergeBytes w (if w.writeBackSrc then data else y) (r.read i) := by
  simp only [writesReg, Bool.and_eq_true, beq_iff_eq] at h
  rw [Regs.read_writeBack, if_pos ⟨h.1.1, h.2⟩]

/-! ## The data space -/

@[simp] theorem memAccess_data (w : Ctl) (y op : Word) (d : DataSpace) :
    (memAccess w y op d).1 = if w.memLoad then d.answer y else if w.assertStoreOp then op else 0 := by
  unfold memAccess
  cases w.memLoad <;> rfl

theorem memAccess_space (w : Ctl) (y op : Word) (d : DataSpace) :
    (memAccess w y op d).2
      = { answers := if w.memLoad then d.answers.tail else d.answers
          calls := d.calls ++ (if w.memLoad then [.load y (d.answer y)] else [])
            ++ (if w.memStore then [.store op y] else []) } := by
  unfold memAccess
  cases w.memLoad <;> cases w.memStore <;> simp [DataSpace.load, DataSpace.store]

/-- An instruction that neither loads nor stores leaves the data space alone. -/
theorem memAccess_quiet {w : Ctl} (hl : w.memLoad = false) (hs : w.memStore = false) (y op : Word) (d : DataSpace) :
    (memAccess w y op d).2 = d := by
  simp [memAccess, hl, hs]

/-! ## The interface form of the decoders -/

/-- Two indices alike in bits 8 to 0 are answered alike. -/
theorem queryU32_congr (implementation : BitVec 9 → Ctl) {x y : BitVec 32}
    (h : x.extractLsb' 0 9 = y.extractLsb' 0 9) : queryU32 implementation x = queryU32 implementation y := by
  rw [queryU32, queryU32, h]

/-- Only the 23 signal bits of the answer can be set. -/
theorem queryU32_lt (implementation : BitVec 9 → Ctl) (x : BitVec 32) : (queryU32 implementation x).toNat < 2 ^ 23 := by
  have := (implementation (x.extractLsb' 0 9)).isLt
  rw [queryU32, BitVec.toNat_setWidth]
  omega

/-! ## The ALU -/

/-- The ALU, whatever its control lines (41_alu.md R202, R203, R209 to R211). -/
theorem alu_eq (a b : Word) (c0 : Bool) (i : BitVec 3) (rs : BitVec 2) (lines : AluLines) (l : AluLatches) :
    alu a b c0 i rs lines l
      = let r := aluRoute rs (if lines.ftab then a else l.aluA) (if lines.ftab then b else l.aluB) l.aluF
        let v := aluFunction i r.1 r.2 c0
        { f := if lines.oef then some (if lines.ftf then v.fc else l.aluF) else none
          c16 := v.c16
          zero := v.fc == 0
          ovf := v.ovf
          latches := { aluA := if lines.ena then a else l.aluA
                       aluB := if lines.enb then b else l.aluB
                       aluF := if lines.enf then v.fc else l.aluF } } := rfl


/-- With every latch control asserted the ALU answers the combinational result of the routed operands. -/
theorem alu_flowThrough (a b : Word) (c0 : Bool) (i : BitVec 3) (rs : BitVec 2) (l : AluLatches) :
    alu a b c0 i rs AluLines.flowThrough l
      = let r := aluRoute rs a b l.aluF
        let v := aluFunction i r.1 r.2 c0
        { f := some v.fc, c16 := v.c16, zero := v.fc == 0, ovf := v.ovf,
          latches := { aluA := a, aluB := b, aluF := v.fc } } := rfl

/-- What the function block gives in this step's EX phase. -/
def State.exValue (s : State) : AluValue :=
  aluFunction s.idex.ctl.i (aluRoute s.idex.ctl.rs s.idex.left s.idex.right s.latches.aluF).1
    (aluRoute s.idex.ctl.rs s.idex.left s.idex.right s.latches.aluF).2 s.idex.ctl.c0

theorem State.exY_eq (s : State) : s.exY = s.exValue.fc := rfl
theorem State.exAlu_c16 (s : State) : s.exAlu.c16 = s.exValue.c16 := rfl
theorem State.exAlu_zero (s : State) : s.exAlu.zero = (s.exValue.fc == 0) := rfl
theorem State.exAlu_ovf (s : State) : s.exAlu.ovf = s.exValue.ovf := rfl

/-! ## The hazard unit -/

/-- Everything a port can do, for a port that is used. -/
theorem portSelect_cases (s : RegIdx) (exCtl : Ctl) (exSel : RegIdx) (memCtl : Ctl) (memSel : RegIdx) :
    (writesReg exCtl exSel s = true ∧ exCtl.writeBackSrc = true
        ∧ portSelect false s exCtl exSel memCtl memSel = (.none, true))
    ∨ (writesReg exCtl exSel s = true ∧ exCtl.writeBackSrc = false
        ∧ portSelect false s exCtl exSel memCtl memSel = (.fromEx, false))
    ∨ (writesReg exCtl exSel s = false ∧ writesReg memCtl memSel s = true
        ∧ portSelect false s exCtl exSel memCtl memSel = (.fromMem, false))
    ∨ (writesReg exCtl exSel s = false ∧ writesReg memCtl memSel s = false
        ∧ portSelect false s exCtl exSel memCtl memSel = (.none, false)) := by
  unfold portSelect
  cases writesReg exCtl exSel s <;> cases writesReg memCtl memSel s <;> cases exCtl.writeBackSrc <;> simp

/-- A port adds to the stall exactly when it is used and a store-operand producer in EX writes its register; a producer in
MEM never does (42_hazard_unit.md R234, R235, R240). -/
theorem portSelect_stall_iff (unused : Bool) (s : RegIdx) (exCtl : Ctl) (exSel : RegIdx) (memCtl : Ctl)
    (memSel : RegIdx) :
    (portSelect unused s exCtl exSel memCtl memSel).2 = true
      ↔ unused = false ∧ writesReg exCtl exSel s = true ∧ exCtl.writeBackSrc = true := by
  unfold portSelect
  cases unused <;> cases writesReg exCtl exSel s <;> cases writesReg memCtl memSel s <;> cases exCtl.writeBackSrc <;> simp

@[simp] theorem portSelect_unused (s : RegIdx) (exCtl : Ctl) (exSel : RegIdx) (memCtl : Ctl) (memSel : RegIdx) :
    portSelect true s exCtl exSel memCtl memSel = (.none, false) := rfl

@[simp] theorem hazardOf_stall (s : State) (ins : Word) (w : Ctl) :
    (s.hazardOf ins w).stall = hazardStall ins w s.idex.ctl s.idex.selC s.exmem.ctl s.exmem.selC := rfl

/-! ## The running step -/

/-- What a running step answers. -/
theorem runningStep_next_iff (ins : Word) (w : Ctl) (s t : State) :
    runningStep ins w s = .next t ↔ s.refusedAnswer = none ∧ t = s.advance ins w := by
  unfold runningStep
  cases s.refusedAnswer with
  | some n => simp
  | none => simp [eq_comm]

/-- The three latch cases of a running step (43_pipeline.md R270). -/
theorem advance_cases (s : State) (ins : Word) (w : Ctl) :
    (s.idex.ctl.j = true ∧ s.advance ins w = s.latchFlush)
    ∨ (s.idex.ctl.j = false ∧ (s.hazardOf ins w).stall = true ∧ s.advance ins w = s.latchStall)
    ∨ (s.idex.ctl.j = false ∧ (s.hazardOf ins w).stall = false
        ∧ s.advance ins w = s.latchNormal (s.idContent ins w)) := by
  unfold State.advance
  cases s.idex.ctl.j <;> cases (s.hazardOf ins w).stall <;> simp

/-- When the host's answer is refused. -/
theorem refusedAnswer_eq_some_iff (s : State) (n : Nat) :
    s.refusedAnswer = some n ↔ s.exmem.ctl.memLoad = true ∧ s.data.answers.head? = some n ∧ 2 ^ 16 ≤ n := by
  unfold State.refusedAnswer
  cases s.exmem.ctl.memLoad <;> simp [Option.filter_eq_some_iff]

/-- The three things one call of `step()` can do (43_pipeline.md R260). -/
theorem step_cases (s : State) :
    (0 < s.rc ∧ step s = .next s.resettingStep)
    ∨ (s.rc = 0 ∧ s.isHalted = true ∧ step s = .next s)
    ∨ (s.rc = 0 ∧ s.isHalted = false ∧ step s = exec s.instrInId s) := by
  unfold step State.isResetting
  rcases Nat.eq_zero_or_pos s.rc with h | h
  · cases hh : s.isHalted <;> simp [h]
  · simp [h]

@[simp] theorem nopWord_bits : nopWord.hlt = false ∧ nopWord.fi = false ∧ nopWord.j = false ∧ nopWord.memLoad = false
    ∧ nopWord.memStore = false ∧ nopWord.assertStoreOp = false ∧ nopWord.wben = false := by decide

end Sys2Proof.Machine
end

