-- ==== Sys2Proof/Laws/PerInstr.lean ====
section
/-! SUPPORT. The family Opcode: the word of an instruction has the opcode of its row (30_encoding.md R106), one lemma per
constructor. -/

namespace Sys2Proof.Laws.Opcode

/-- The top five bits of the encoded word are the row's opcode. -/
def Statement (i : Instr) : Prop := opcodeOf (encode i) = i.opcode

theorem nop (x : BitVec 11) : Statement (.nop x) := opcodeOf_formatZ _ _
theorem hlt (x : BitVec 11) : Statement (.hlt x) := opcodeOf_formatZ _ _
theorem load (x : RegIdx) (y : RegIdx) (z : BitVec 5) : Statement (.load x y z) := opcodeOf_formatRRI _ _ _ _
theorem store (x : RegIdx) (y : RegIdx) (z : BitVec 5) : Statement (.store x y z) := opcodeOf_formatST _ _ _ _
theorem li (x : RegIdx) (y : BitVec 8) : Statement (.li x y) := opcodeOf_formatRI8 _ _ _
theorem lui (x : RegIdx) (y : BitVec 8) : Statement (.lui x y) := opcodeOf_formatRI8 _ _ _
theorem cmp (x : BitVec 3) (y : RegIdx) (z : RegIdx) (u : BitVec 2) : Statement (.cmp x y z u) := opcodeOf_formatRRR _ _ _ _ _
theorem add (x : RegIdx) (y : RegIdx) (z : RegIdx) (u : BitVec 2) : Statement (.add x y z u) := opcodeOf_formatRRR _ _ _ _ _
theorem sub (x : RegIdx) (y : RegIdx) (z : RegIdx) (u : BitVec 2) : Statement (.sub x y z u) := opcodeOf_formatRRR _ _ _ _ _
theorem and (x : RegIdx) (y : RegIdx) (z : RegIdx) (u : BitVec 2) : Statement (.and x y z u) := opcodeOf_formatRRR _ _ _ _ _
theorem or (x : RegIdx) (y : RegIdx) (z : RegIdx) (u : BitVec 2) : Statement (.or x y z u) := opcodeOf_formatRRR _ _ _ _ _
theorem xor (x : RegIdx) (y : RegIdx) (z : RegIdx) (u : BitVec 2) : Statement (.xor x y z u) := opcodeOf_formatRRR _ _ _ _ _
theorem not (x : RegIdx) (y : RegIdx) (z : BitVec 5) : Statement (.not x y z) := opcodeOf_formatRRI _ _ _ _
theorem cmpi (x : BitVec 3) (y : RegIdx) (z : BitVec 5) : Statement (.cmpi x y z) := opcodeOf_formatRRI _ _ _ _
theorem addi (x : RegIdx) (y : RegIdx) (z : BitVec 5) : Statement (.addi x y z) := opcodeOf_formatRRI _ _ _ _
theorem subi (x : RegIdx) (y : RegIdx) (z : BitVec 5) : Statement (.subi x y z) := opcodeOf_formatRRI _ _ _ _
theorem andi (x : RegIdx) (y : RegIdx) (z : BitVec 5) : Statement (.andi x y z) := opcodeOf_formatRRI _ _ _ _
theorem ori (x : RegIdx) (y : RegIdx) (z : BitVec 5) : Statement (.ori x y z) := opcodeOf_formatRRI _ _ _ _
theorem xori (x : RegIdx) (y : RegIdx) (z : BitVec 5) : Statement (.xori x y z) := opcodeOf_formatRRI _ _ _ _
theorem rsvd19 (x : BitVec 11) : Statement (.rsvd19 x) := opcodeOf_formatZ _ _
theorem jmp (x : BitVec 1) (y : BitVec 10) : Statement (.jmp x y) := opcodeOf_formatJ10 _ _ _
theorem jr (x : BitVec 3) (y : RegIdx) (z : RegIdx) (u : BitVec 2) : Statement (.jr x y z u) := opcodeOf_formatRRR _ _ _ _ _
theorem jalr (x : RegIdx) (y : RegIdx) (z : RegIdx) (u : BitVec 2) : Statement (.jalr x y z u) := opcodeOf_formatRRR _ _ _ _ _
theorem rsvd23 (x : BitVec 11) : Statement (.rsvd23 x) := opcodeOf_formatZ _ _
theorem beq (x : BitVec 1) (y : BitVec 10) : Statement (.beq x y) := opcodeOf_formatJ10 _ _ _
theorem bne (x : BitVec 1) (y : BitVec 10) : Statement (.bne x y) := opcodeOf_formatJ10 _ _ _
theorem blt (x : BitVec 1) (y : BitVec 10) : Statement (.blt x y) := opcodeOf_formatJ10 _ _ _
theorem bgt (x : BitVec 1) (y : BitVec 10) : Statement (.bgt x y) := opcodeOf_formatJ10 _ _ _
theorem bltu (x : BitVec 1) (y : BitVec 10) : Statement (.bltu x y) := opcodeOf_formatJ10 _ _ _
theorem bgtu (x : BitVec 1) (y : BitVec 10) : Statement (.bgtu x y) := opcodeOf_formatJ10 _ _ _
theorem adc (x : RegIdx) (y : RegIdx) (z : RegIdx) (u : BitVec 2) : Statement (.adc x y z u) := opcodeOf_formatRRR _ _ _ _ _
theorem sbc (x : RegIdx) (y : RegIdx) (z : RegIdx) (u : BitVec 2) : Statement (.sbc x y z u) := opcodeOf_formatRRR _ _ _ _ _

end Sys2Proof.Laws.Opcode
end

