-- ==== Sys2Proof/Laws/Exec.lean ====
section
/-! SUPPORT. Every meaning is the running step with the decoder's control word for its opcode and the flags; what a
running step that answers a next state can have done. -/

namespace Sys2Proof.Machine

/-- The word of a branch opcode is the branch word of its predicate (40_decoder.md R168). -/
theorem controlWord_branch (op : Opcode) (f : Flags) (h : op.toNat ∈ [24, 25, 26, 27, 28, 29]) :
    controlWord f op = branchWord (branchTaken op.toNat f) := by
  simp only [List.mem_cons, List.not_mem_nil, or_false] at h
  unfold controlWord
  rcases h with h | h | h | h | h | h <;> simp only [h, signalsOf] <;> generalize branchTaken _ f = p <;>
    revert p <;> decide

/-- Below 24 the flags do not matter (40_decoder.md R167). -/
theorem controlWord_fixed (op : Opcode) (f : Flags) (h : op.toNat < 24) :
    controlWord f op = controlWord Flags.clear op := by
  unfold controlWord
  generalize op.toNat = n at h
  interval_cases n <;> rfl

/-- The word of ADC and SBC has C0 where C is set (40_decoder.md R169). -/
theorem controlWord_carry (op : Opcode) (f : Flags) (h : op = 30 ∨ op = 31) :
    controlWord f op = (signalsOf { n := false, c := f.c, z := false, v := false } op.toNat).pack := by
  rcases h with rfl | rfl <;> rfl

/-- Every meaning is the running step of its own word and of the control word the decoder gives for its opcode
(43_pipeline.md R267, R277; 40_decoder.md R167 to R169). -/
theorem exec_eq (i : Instr) (s : State) : exec i s = runningStep (encode i) (tableWord i s.flags) s := by
  cases i with
  | beq _ _ => exact congrArg (runningStep _ · s) (controlWord_branch 24 s.flags (by decide)).symm
  | bne _ _ => exact congrArg (runningStep _ · s) (controlWord_branch 25 s.flags (by decide)).symm
  | blt _ _ => exact congrArg (runningStep _ · s) (controlWord_branch 26 s.flags (by decide)).symm
  | bgt _ _ => exact congrArg (runningStep _ · s) (controlWord_branch 27 s.flags (by decide)).symm
  | bltu _ _ => exact congrArg (runningStep _ · s) (controlWord_branch 28 s.flags (by decide)).symm
  | bgtu _ _ => exact congrArg (runningStep _ · s) (controlWord_branch 29 s.flags (by decide)).symm
  | adc _ _ _ _ =>
    refine congrArg (runningStep _ · s) (Eq.trans ?_ (controlWord_carry 30 s.flags (.inl rfl)).symm)
    generalize s.flags.c = p
    revert p
    decide
  | sbc _ _ _ _ =>
    refine congrArg (runningStep _ · s) (Eq.trans ?_ (controlWord_carry 31 s.flags (.inr rfl)).symm)
    generalize s.flags.c = p
    revert p
    decide
  | _ =>
    exact congrArg (runningStep _ · s) (Eq.trans (by simp only [Instr.opcode]; decide)
      (controlWord_fixed _ s.flags (by simp only [Instr.opcode]; decide)).symm)

/-- What an instruction that answers a next state did (43_pipeline.md R270): flushed, held, or entered EX. -/
theorem exec_next_cases {i : Instr} {s t : State} (h : exec i s = .next t) :
    s.refusedAnswer = none ∧
      ((s.idex.ctl.j = true ∧ t = s.latchFlush)
      ∨ (s.idex.ctl.j = false ∧ s.holds i = true ∧ t = s.latchStall)
      ∨ (s.idex.ctl.j = false ∧ s.holds i = false ∧ t = s.latchNormal (s.idContent (encode i) (tableWord i s.flags)))) := by
  rw [exec_eq, runningStep_next_iff] at h
  obtain ⟨hr, rfl⟩ := h
  refine ⟨hr, ?_⟩
  rcases advance_cases s (encode i) (tableWord i s.flags) with h | h | h
  · exact .inl h
  · exact .inr (.inl h)
  · exact .inr (.inr h)

end Sys2Proof.Machine
end

