-- ==== Sys2Proof/Laws/Memory.lean ====
section
/-! SUPPORT. The laws of the instruction memory: reads after writes, and that every operation keeps the canonical
form. -/

namespace Sys2Proof.Machine

theorem Memory.wfFrom_weaken {m : Memory} {j k : Nat} (h : j ≤ k) (hm : m.wfFrom k = true) : m.wfFrom j = true := by
  cases m with
  | nil => rfl
  | cons e rest =>
    simp only [Memory.wfFrom, Bool.and_eq_true, decide_eq_true_eq] at hm ⊢
    exact ⟨⟨⟨by omega, hm.1.1.2⟩, hm.1.2⟩, hm.2⟩

theorem Memory.wfFrom_write {m : Memory} {k : Nat} (a v : Word) (hm : m.wfFrom k = true) (hk : k ≤ a.toNat) :
    (m.write a v).wfFrom k = true := by
  induction m generalizing k with
  | nil =>
    have := a.isLt
    by_cases hv : v = unlistedWord <;> simp [Memory.write, Memory.wfFrom, hv, hk, this]
  | cons e rest ih =>
    obtain ⟨j, u⟩ := e
    have ha := a.isLt
    simp only [Memory.wfFrom, Bool.and_eq_true, decide_eq_true_eq, bne_iff_ne] at hm
    obtain ⟨⟨⟨h1, h2⟩, h3⟩, h4⟩ := hm
    unfold Memory.write
    split
    · split
      · simp [Memory.wfFrom, *]; omega
      · simp only [Memory.wfFrom, Bool.and_eq_true, decide_eq_true_eq, bne_iff_ne]
        exact ⟨⟨⟨hk, ha⟩, by assumption⟩, ⟨⟨by omega, h2⟩, h3⟩, h4⟩
    · split
      · split
        · exact Memory.wfFrom_weaken (by omega) h4
        · simp [Memory.wfFrom, *]; omega
      · simp only [Memory.wfFrom, Bool.and_eq_true, decide_eq_true_eq, bne_iff_ne]
        exact ⟨⟨⟨h1, h2⟩, h3⟩, ih h4 (by omega)⟩

/-- Writing keeps the canonical form. -/
theorem Memory.wf_write {m : Memory} (a v : Word) (hm : m.wf = true) : (m.write a v).wf = true :=
  Memory.wfFrom_write a v hm (Nat.zero_le _)

/-- An address below every listed one reads as unlisted. -/
theorem Memory.read_below {m : Memory} {k : Nat} (a : Word) (hm : m.wfFrom k = true) (ha : a.toNat < k) :
    m.read a = unlistedWord := by
  induction m generalizing k with
  | nil => rfl
  | cons e rest ih =>
    obtain ⟨j, u⟩ := e
    simp only [Memory.wfFrom, Bool.and_eq_true, decide_eq_true_eq] at hm
    simp only [Memory.read, if_neg (show ¬ j = a.toNat by omega)]
    exact ih hm.2 (by omega)

/-- A read after a write to the same address gives the word written. -/
theorem Memory.read_write_same {m : Memory} {k : Nat} (a v : Word) (hm : m.wfFrom k = true) :
    (m.write a v).read a = v := by
  induction m generalizing k with
  | nil => by_cases hv : v = unlistedWord <;> simp [Memory.write, Memory.read, hv]
  | cons e rest ih =>
    obtain ⟨j, u⟩ := e
    simp only [Memory.wfFrom, Bool.and_eq_true, decide_eq_true_eq] at hm
    unfold Memory.write
    split
    · split
      · subst_vars
        exact Memory.read_below (k := a.toNat + 1) (m := (j, u) :: rest) a
          (by simp only [Memory.wfFrom, Bool.and_eq_true, decide_eq_true_eq]
              exact ⟨⟨⟨by omega, hm.1.1.2⟩, hm.1.2⟩, hm.2⟩) (by omega)
      · simp [Memory.read]
    · split
      · split
        · subst_vars
          exact Memory.read_below a hm.2 (by omega)
        · simp [Memory.read, *]
      · simp only [Memory.read, if_neg (show ¬ j = a.toNat by omega)]
        exact ih hm.2

/-- A write leaves every other address alone. -/
theorem Memory.read_write_other (m : Memory) {a b : Word} (v : Word) (h : b ≠ a) : (m.write a v).read b = m.read b := by
  have hne : a.toNat ≠ b.toNat := fun he => h (BitVec.eq_of_toNat_eq he.symm)
  induction m with
  | nil => by_cases hv : v = unlistedWord <;> simp [Memory.write, Memory.read, hv, hne]
  | cons e rest ih =>
    obtain ⟨j, u⟩ := e
    unfold Memory.write
    split
    · split
      · rfl
      · simp [Memory.read, hne]
    · split
      · rename_i hj
        split
        · simp [Memory.read, ← hj, hne]
        · simp [Memory.read, ← hj, hne]
      · simp only [Memory.read, ih]

theorem Memory.wfFrom_ofWordsFrom (ws : List Word) (k : Nat) : (Memory.ofWordsFrom k ws).wfFrom k = true := by
  induction ws generalizing k with
  | nil => rfl
  | cons v rest ih =>
    unfold Memory.ofWordsFrom
    split
    · split
      · exact Memory.wfFrom_weaken (Nat.le_succ k) (ih (k + 1))
      · simp [Memory.wfFrom, *]; omega
    · rfl

/-- The memory of a host's array is in canonical form. -/
theorem Memory.wf_ofWords (ws : List Word) : (Memory.ofWords ws).wf = true := Memory.wfFrom_ofWordsFrom ws 0

/-- The memory after reset is in canonical form. -/
theorem State.reset_imem_wf : State.reset.imem.wf = true := rfl

end Sys2Proof.Machine
end

