-- ==== Sys2Proof/Tests/Slice0.lean ====
section
/-! SUPPORT. The model's own tests. Expected values are the spec's: the Example lines of files 44 to 46 and the vectors of
95_test_vectors.md (named in each docstring), never the model's answers. The last part shows, for every obligation with
hypotheses, a concrete state and operands that meet them. -/

namespace Sys2Proof.Tests

open Sys2Proof.Machine

/-! ## States to start from -/

/-- A running core with bubbles in every boundary register but IF/ID, which holds `ins`, fetched from address `p`. -/
def idle (p ins : Word) (regs : List (RegIdx × Word)) (f : Flags) : State :=
  { regs := regs.foldl (fun r x => r.write x.1 x.2) Regs.zero, flags := f, pc := p + 1, ifid := { ins := ins },
    idex := IdEx.bubble, exmem := ExMem.bubble, memwb := MemWb.bubble, rc := 0, latches := AluLatches.zero, imem := [],
    data := { answers := [], calls := [] } }

/-- An idle core with no instruction fetched yet. -/
def quiet : State := idle 0 0 [] Flags.clear

/-- The flags, written as the spec's vectors write them. -/
def fl (n c z v : Nat) : Flags := { n := n != 0, c := c != 0, z := z != 0, v := v != 0 }

/-- The state a step answers, where it answers one. -/
def nextOf (o : Host.Outcome State Fault Refusal) : Option State :=
  match o with
  | .next t => some t
  | .fault _ => none
  | .refused _ => none

/-- The program-order state after the step that takes the word `ins` out of ID. -/
def after (p ins : Word) (regs : List (RegIdx × Word)) (f : Flags) : Option Arch :=
  (nextOf (step (idle p ins regs f))).map State.settle

/-- Register `c` and the flags after one instruction. -/
def result (ins : Word) (regs : List (RegIdx × Word)) (f : Flags) (c : RegIdx) : Option (Word × Flags) :=
  (after 0 ins regs f).map fun t => (t.regs.read c, t.flags)

/-- The address of the next instruction after one at `p`. -/
def nextAddress (p ins : Word) (regs : List (RegIdx × Word)) (f : Flags) : Option Word :=
  (after p ins regs f).map Arch.next

/-- The calls of the host after one instruction. -/
def callsOf (ins : Word) (regs : List (RegIdx × Word)) : Option (List HostCall) :=
  (after 0 ins regs Flags.clear).map fun t => t.data.calls

/-! ## WellFormed: each format's check refuses a word with an ignored bit set (30_encoding.md R103) -/

theorem test_ill_formed_nop : (.nop 0x400 : Instr).wellFormed = false ∧ (.nop 0 : Instr).wellFormed = true := by decide

theorem test_ill_formed_hlt : (.hlt 1 : Instr).wellFormed = false ∧ (.hlt 0 : Instr).wellFormed = true := by decide

theorem test_ill_formed_rsvd19 : (.rsvd19 2 : Instr).wellFormed = false ∧ (.rsvd19 0 : Instr).wellFormed = true := by decide

theorem test_ill_formed_rsvd23 : (.rsvd23 0x7FF : Instr).wellFormed = false ∧ (.rsvd23 0 : Instr).wellFormed = true := by decide

theorem test_ill_formed_cmp_high : (.cmp 1 1 2 0 : Instr).wellFormed = false ∧ (.cmp 0 1 2 0 : Instr).wellFormed = true := by decide

theorem test_ill_formed_cmp_low : (.cmp 0 1 2 1 : Instr).wellFormed = false ∧ (.cmp 0 7 7 0 : Instr).wellFormed = true := by decide

theorem test_ill_formed_jr_high : (.jr 4 7 0 0 : Instr).wellFormed = false ∧ (.jr 0 7 0 0 : Instr).wellFormed = true := by decide

theorem test_ill_formed_jr_low : (.jr 0 7 0 2 : Instr).wellFormed = false ∧ (.jr 0 0 7 0 : Instr).wellFormed = true := by decide

theorem test_ill_formed_add : (.add 3 1 2 1 : Instr).wellFormed = false ∧ (.add 3 1 2 0 : Instr).wellFormed = true := by decide

theorem test_ill_formed_sub : (.sub 3 1 2 2 : Instr).wellFormed = false ∧ (.sub 3 1 2 0 : Instr).wellFormed = true := by decide

theorem test_ill_formed_and : (.and 3 1 2 3 : Instr).wellFormed = false ∧ (.and 3 1 2 0 : Instr).wellFormed = true := by decide

theorem test_ill_formed_or : (.or 3 1 2 1 : Instr).wellFormed = false ∧ (.or 3 1 2 0 : Instr).wellFormed = true := by decide

theorem test_ill_formed_xor : (.xor 3 1 2 1 : Instr).wellFormed = false ∧ (.xor 3 1 2 0 : Instr).wellFormed = true := by decide

theorem test_ill_formed_adc : (.adc 3 1 2 1 : Instr).wellFormed = false ∧ (.adc 3 1 2 0 : Instr).wellFormed = true := by decide

theorem test_ill_formed_sbc : (.sbc 3 1 2 2 : Instr).wellFormed = false ∧ (.sbc 3 1 2 0 : Instr).wellFormed = true := by decide

theorem test_ill_formed_jalr : (.jalr 7 6 0 3 : Instr).wellFormed = false ∧ (.jalr 7 6 0 0 : Instr).wellFormed = true := by decide

theorem test_ill_formed_not : (.not 3 1 0x10 : Instr).wellFormed = false ∧ (.not 3 1 0 : Instr).wellFormed = true := by decide

theorem test_ill_formed_cmpi : (.cmpi 2 1 0x1F : Instr).wellFormed = false ∧ (.cmpi 0 1 0x1F : Instr).wellFormed = true := by decide

theorem test_ill_formed_jmp : (.jmp 1 5 : Instr).wellFormed = false ∧ (.jmp 0 5 : Instr).wellFormed = true := by decide

theorem test_ill_formed_beq : (.beq 1 5 : Instr).wellFormed = false ∧ (.beq 0 5 : Instr).wellFormed = true := by decide

theorem test_ill_formed_bne : (.bne 1 5 : Instr).wellFormed = false ∧ (.bne 0 5 : Instr).wellFormed = true := by decide

theorem test_ill_formed_blt : (.blt 1 5 : Instr).wellFormed = false ∧ (.blt 0 5 : Instr).wellFormed = true := by decide

theorem test_ill_formed_bgt : (.bgt 1 5 : Instr).wellFormed = false ∧ (.bgt 0 5 : Instr).wellFormed = true := by decide

theorem test_ill_formed_bltu : (.bltu 1 5 : Instr).wellFormed = false ∧ (.bltu 0 5 : Instr).wellFormed = true := by decide

theorem test_ill_formed_bgtu : (.bgtu 1 5 : Instr).wellFormed = false ∧ (.bgtu 0 5 : Instr).wellFormed = true := by decide

/-- The formats with no ignored bit: every operand is well-formed. -/
theorem test_no_ignored_bits : (.load 7 7 0x1F : Instr).wellFormed = true ∧ (.store 7 7 0x1F : Instr).wellFormed = true
    ∧ (.li 7 0xFF : Instr).wellFormed = true ∧ (.lui 7 0xFF : Instr).wellFormed = true
    ∧ (.addi 7 7 0x1F : Instr).wellFormed = true ∧ (.xori 7 7 0x1F : Instr).wellFormed = true := by decide

/-! ## Decode: every constructor from a word written out bit by bit from 30_encoding.md R101 to R106 -/

theorem test_decode_nop : decode 0b00000_00000000000 = .nop 0 ∧ encode (.nop 0) = 0b00000_00000000000 := by decide

theorem test_decode_hlt : decode 0b00001_00000000000 = .hlt 0 ∧ encode (.hlt 0) = 0b00001_00000000000 := by decide

theorem test_decode_load : decode 0b00010_011_001_11110 = .load 3 1 0x1E ∧ encode (.load 3 1 0x1E) = 0b00010_011_001_11110 := by decide

theorem test_decode_store : decode 0b00011_001_001_010_01 = .store 2 1 5 ∧ encode (.store 2 1 5) = 0b00011_001_001_010_01 := by decide

theorem test_decode_li : decode 0b00100_011_11111111 = .li 3 0xFF ∧ encode (.li 3 0xFF) = 0b00100_011_11111111 := by decide

theorem test_decode_lui : decode 0b00101_011_10101011 = .lui 3 0xAB ∧ encode (.lui 3 0xAB) = 0b00101_011_10101011 := by decide

theorem test_decode_cmp : decode 0b00110_000_001_010_00 = .cmp 0 1 2 0 ∧ encode (.cmp 0 1 2 0) = 0b00110_000_001_010_00 := by decide

theorem test_decode_add : decode 0b00111_011_001_010_00 = .add 3 1 2 0 ∧ encode (.add 3 1 2 0) = 0b00111_011_001_010_00 := by decide

theorem test_decode_sub : decode 0b01000_011_001_010_00 = .sub 3 1 2 0 ∧ encode (.sub 3 1 2 0) = 0b01000_011_001_010_00 := by decide

theorem test_decode_and : decode 0b01001_011_001_010_00 = .and 3 1 2 0 ∧ encode (.and 3 1 2 0) = 0b01001_011_001_010_00 := by decide

theorem test_decode_or : decode 0b01010_011_001_010_00 = .or 3 1 2 0 ∧ encode (.or 3 1 2 0) = 0b01010_011_001_010_00 := by decide

theorem test_decode_xor : decode 0b01011_011_001_010_00 = .xor 3 1 2 0 ∧ encode (.xor 3 1 2 0) = 0b01011_011_001_010_00 := by decide

theorem test_decode_not : decode 0b01100_011_001_00000 = .not 3 1 0 ∧ encode (.not 3 1 0) = 0b01100_011_001_00000 := by decide

theorem test_decode_cmpi : decode 0b01101_000_001_11111 = .cmpi 0 1 0x1F ∧ encode (.cmpi 0 1 0x1F) = 0b01101_000_001_11111 := by decide

theorem test_decode_addi : decode 0b01110_011_001_11111 = .addi 3 1 0x1F ∧ encode (.addi 3 1 0x1F) = 0b01110_011_001_11111 := by decide

theorem test_decode_subi : decode 0b01111_011_001_00001 = .subi 3 1 1 ∧ encode (.subi 3 1 1) = 0b01111_011_001_00001 := by decide

theorem test_decode_andi : decode 0b10000_011_001_10000 = .andi 3 1 0x10 ∧ encode (.andi 3 1 0x10) = 0b10000_011_001_10000 := by decide

theorem test_decode_ori : decode 0b10001_011_001_01111 = .ori 3 1 0x0F ∧ encode (.ori 3 1 0x0F) = 0b10001_011_001_01111 := by decide

theorem test_decode_xori : decode 0b10010_011_001_11111 = .xori 3 1 0x1F ∧ encode (.xori 3 1 0x1F) = 0b10010_011_001_11111 := by decide

theorem test_decode_rsvd19 : decode 0b10011_00000000000 = .rsvd19 0 ∧ encode (.rsvd19 0) = 0b10011_00000000000 := by decide

theorem test_decode_jmp : decode 0b10100_0_1111111110 = .jmp 0 0x3FE ∧ encode (.jmp 0 0x3FE) = 0b10100_0_1111111110 := by decide

theorem test_decode_jr : decode 0b10101_000_111_000_00 = .jr 0 7 0 0 ∧ encode (.jr 0 7 0 0) = 0b10101_000_111_000_00 := by decide

theorem test_decode_jalr : decode 0b10110_111_110_000_00 = .jalr 7 6 0 0 ∧ encode (.jalr 7 6 0 0) = 0b10110_111_110_000_00 := by decide

theorem test_decode_rsvd23 : decode 0b10111_11111111111 = .rsvd23 0x7FF ∧ encode (.rsvd23 0x7FF) = 0b10111_11111111111 := by decide

theorem test_decode_beq : decode 0b11000_0_0000000101 = .beq 0 5 ∧ encode (.beq 0 5) = 0b11000_0_0000000101 := by decide

theorem test_decode_bne : decode 0b11001_0_1111111101 = .bne 0 0x3FD ∧ encode (.bne 0 0x3FD) = 0b11001_0_1111111101 := by decide

theorem test_decode_blt : decode 0b11010_0_1111111001 = .blt 0 0x3F9 ∧ encode (.blt 0 0x3F9) = 0b11010_0_1111111001 := by decide

theorem test_decode_bgt : decode 0b11011_0_0000000000 = .bgt 0 0 ∧ encode (.bgt 0 0) = 0b11011_0_0000000000 := by decide

theorem test_decode_bltu : decode 0b11100_0_0000001010 = .bltu 0 0x00A ∧ encode (.bltu 0 0x00A) = 0b11100_0_0000001010 := by decide

theorem test_decode_bgtu : decode 0b11101_0_1000000000 = .bgtu 0 0x200 ∧ encode (.bgtu 0 0x200) = 0b11101_0_1000000000 := by decide

theorem test_decode_adc : decode 0b11110_011_001_010_00 = .adc 3 1 2 0 ∧ encode (.adc 3 1 2 0) = 0b11110_011_001_010_00 := by decide

theorem test_decode_sbc : decode 0b11111_011_001_010_00 = .sbc 3 1 2 0 ∧ encode (.sbc 3 1 2 0) = 0b11111_011_001_010_00 := by decide

/-- STORE splits its offset: -16 is `100` above and `00` below (vector I-25). -/
theorem test_decode_store_split : decode 0b00011_100_010_001_00 = .store 1 2 0x10 := by decide

/-- The ignored bits are kept as operands. -/
theorem test_decode_ignored : decode 0b00110_101_001_010_11 = .cmp 5 1 2 3 ∧ decode 0b10100_1_0000000000 = .jmp 1 0
    ∧ decode 0x07FF = .nop 0x7FF := by decide

/-- No word, no instruction (30_encoding.md R100). -/
theorem test_decode_no_word : (decodeWords []).toOption = none ∧ decodeTableWord 16 0x3B28 = some (.add 3 1 2 0) := by
  decide

/-! ## One step per instruction, from section 4 of 95_test_vectors.md -/

/-- Vector I-1: the flags, and no register. -/
theorem test_cmp : result 0x3028 [(1, 0x0005), (2, 0x0007), (0, 0x1111)] (fl 0 0 0 0) 0 = some (0x1111, fl 1 0 0 0) := by decide

/-- R377: 0x8000 < 0x0001 gives N = 0, V = 1. -/
theorem test_cmp_overflow : result 0x3028 [(1, 0x8000), (2, 0x0001)] (fl 0 0 0 0) 1 = some (0x8000, fl 0 1 0 1) := by decide

/-- Vector I-2. -/
theorem test_add : result 0x3B28 [(1, 0x7FFF), (2, 0x0001)] (fl 0 0 0 0) 3 = some (0x8000, fl 1 0 0 1) := by decide

/-- Vector I-3. -/
theorem test_sub : result 0x4328 [(1, 0x0005), (2, 0x0007)] (fl 0 0 0 0) 3 = some (0xFFFE, fl 1 0 0 0) := by decide

/-- Vector I-4: the source is the destination. -/
theorem test_sub_same_register : result 0x4000 [(0, 0x1234)] (fl 0 0 0 0) 0 = some (0x0000, fl 0 1 1 0) := by decide

/-- Vector I-5; C and V are cleared. -/
theorem test_and : result 0x4B28 [(1, 0xF0F0), (2, 0x0FF0)] (fl 0 1 0 1) 3 = some (0x00F0, fl 0 0 0 0) := by decide

/-- Vector I-6. -/
theorem test_or : result 0x5328 [(1, 0xF0F0), (2, 0x0FF0)] (fl 0 0 0 0) 3 = some (0xFFF0, fl 1 0 0 0) := by decide

/-- Vector I-7. -/
theorem test_xor : result 0x5B28 [(1, 0xF0F0), (2, 0x0FF0)] (fl 0 0 0 0) 3 = some (0xFF00, fl 1 0 0 0) := by decide

/-- Vector I-8. -/
theorem test_not : result 0x6320 [(1, 0x1234)] (fl 0 0 0 0) 3 = some (0xEDCB, fl 1 0 0 0) := by decide

/-- R307: NOT 0xFFFF = 0 with Z = 1; port B (here r7) does not matter. -/
theorem test_not_ones : result 0x633F [(1, 0xFFFF), (7, 0x1234)] (fl 0 0 0 0) 3 = some (0x0000, fl 0 0 1 0) := by decide

/-- Vector I-9. -/
theorem test_cmpi : result 0x683F [(1, 0xFFFF)] (fl 0 0 0 0) 1 = some (0xFFFF, fl 0 1 1 0) := by decide

/-- Vector I-10. -/
theorem test_cmpi_positive : result 0x68E9 [(7, 0x0009)] (fl 0 0 0 0) 7 = some (0x0009, fl 0 1 1 0) := by decide

/-- Vector I-11. -/
theorem test_addi : result 0x733F [(1, 0x0000)] (fl 0 0 0 0) 3 = some (0xFFFF, fl 1 0 0 0) := by decide

/-- Vector I-13. -/
theorem test_addi_smallest : result 0x7010 [] (fl 0 0 0 0) 0 = some (0xFFF0, fl 1 0 0 0) := by decide

/-- Vector I-14. -/
theorem test_subi : result 0x7B21 [(1, 0x8000)] (fl 0 0 0 0) 3 = some (0x7FFF, fl 0 1 0 1) := by decide

/-- Vector I-15. -/
theorem test_andi : result 0x8330 [(1, 0x1234)] (fl 0 0 0 0) 3 = some (0x1230, fl 0 0 0 0) := by decide

/-- Vector I-16. -/
theorem test_ori : result 0x8B2F [(1, 0x1230)] (fl 0 0 0 0) 3 = some (0x123F, fl 0 0 0 0) := by decide

/-- Vector I-17. -/
theorem test_xori : result 0x933F [(1, 0x00FF)] (fl 0 0 0 0) 3 = some (0xFF00, fl 1 0 0 0) := by decide

/-- Vector I-18. -/
theorem test_adc : result 0xF328 [(1, 0xFFFF), (2, 0x0000)] (fl 0 1 0 0) 3 = some (0x0000, fl 0 1 1 0) := by decide

/-- Vector I-19. -/
theorem test_adc_no_carry : result 0xF000 [] (fl 0 0 0 0) 0 = some (0x0000, fl 0 0 1 0) := by decide

/-- Vector I-20. -/
theorem test_sbc : result 0xFB28 [(1, 0x0005), (2, 0x0003)] (fl 0 0 0 0) 3 = some (0x0001, fl 0 1 0 0) := by decide

/-- Vector I-21. -/
theorem test_sbc_borrow : result 0xF94C [] (fl 0 0 0 0) 1 = some (0xFFFF, fl 1 0 0 0) := by decide

/-- Vector I-27; the flags stay. -/
theorem test_li : result 0x23FF [] (fl 1 1 1 1) 3 = some (0xFFFF, fl 1 1 1 1) := by decide

/-- Vector I-28. -/
theorem test_li_sign : result 0x2080 [] (fl 0 0 0 0) 0 = some (0xFF80, fl 0 0 0 0) := by decide

/-- Vector I-30. -/
theorem test_lui : result 0x2BAB [(3, 0x1234)] (fl 0 1 0 1) 3 = some (0xAB34, fl 0 1 0 1) := by decide

/-- Vector I-31. -/
theorem test_lui_zero : result 0x28FF [] (fl 0 0 0 0) 0 = some (0xFF00, fl 0 0 0 0) := by decide

/-- Vector I-22: one call at base plus offset, whose answer the register takes; the flags stay. -/
theorem test_load :
    ((nextOf (step { idle 0 0x133E [(1, 0x0100)] (fl 1 0 1 0) with data := { answers := [0x4321], calls := [] } })).map
      fun t => (t.settle.data.calls, t.settle.regs.read 3, t.settle.flags))
      = some ([.load 0x00FE 0x4321], 0x4321, fl 1 0 1 0) := by decide

/-- Vector I-23: the address wraps. -/
theorem test_load_wraps :
    ((nextOf (step { idle 0 0x115F [] (fl 0 0 0 0) with data := { answers := [7], calls := [] } })).map
      fun t => t.settle.data.calls) = some [.load 0xFFFF 7] := by decide

/-- Vector I-24. -/
theorem test_store : callsOf 0x1929 [(1, 0x0100), (2, 0xBEEF)] = some [.store 0xBEEF 0x0105] := by decide

/-- Vector I-26: the base register is the data register. -/
theorem test_store_same : callsOf 0x1BFF [(7, 1)] = some [.store 0x0001 0x0010] := by decide

/-- Vector I-32: nothing changes but the place in the program. -/
theorem test_nop : after 9 0x0000 [(1, 5)] (fl 1 0 1 0)
    = some { (idle 9 0x0000 [(1, 5)] (fl 1 0 1 0)).settle with next := 10 } := by decide

/-- Vector I-48, opcode 19. -/
theorem test_rsvd19 : after 9 0x9800 [(1, 5)] (fl 1 0 1 0)
    = some { (idle 9 0x9800 [(1, 5)] (fl 1 0 1 0)).settle with next := 10 } := by decide

/-- Vector I-48, opcode 23. -/
theorem test_rsvd23 : after 9 0xBFFF [(1, 5)] (fl 1 0 1 0)
    = some { (idle 9 0xBFFF [(1, 5)] (fl 1 0 1 0)).settle with next := 10 } := by decide

/-- R371, R274: in the step after HLT enters EX the core is halted. -/
theorem test_hlt : (nextOf (step (idle 0 0x0800 [] Flags.clear))).map
    (fun t => (t.isHalted, (nextOf (step t)).map fun u => (u.isHalted, u.pc))) = some (false, some (true, 3)) := by
  decide

/-- Vector I-34. -/
theorem test_jmp : nextAddress 0x7 0xA3FE [] (fl 0 0 0 0) = some 0x0007 := by decide

/-- Vector I-36. -/
theorem test_jmp_wraps : nextAddress 0x0 0xA200 [] (fl 0 0 0 0) = some 0xFE02 := by decide

/-- Vector I-38. -/
theorem test_jr : nextAddress 0x2 0xA8E0 [(7, 0x0004)] (fl 0 0 0 0) = some 0x0004 := by decide

/-- Vector I-39. -/
theorem test_jr_wraps : nextAddress 0x2 0xA828 [(1, 0xFFFF), (2, 0x0002)] (fl 0 0 0 0) = some 0x0001 := by decide

/-- Vector I-40, the target. -/
theorem test_jalr_target : nextAddress 0x3 0xB7C0 [(6, 0x0006)] (fl 0 0 0 0) = some 0x0006 := by decide

/-- Vector I-40, the link. -/
theorem test_jalr_link : (after 3 0xB7C0 [(6, 6)] (fl 0 0 0 0)).map (fun t => t.regs.read 7) = some 4 := by decide

/-- Vector I-41. -/
theorem test_beq : nextAddress 0xA 0xC005 [] (fl 0 0 1 0) = some 0x0011 := by decide

/-- Vector I-47. -/
theorem test_beq_not : nextAddress 0xA 0xC005 [] (fl 0 0 0 0) = some 0x000B := by decide

/-- Vector I-42. -/
theorem test_bne : nextAddress 0x6 0xCBFD [] (fl 0 0 0 0) = some 0x0005 := by decide

/-- R376: not taken with Z = 1. -/
theorem test_bne_not : nextAddress 0x6 0xCBFD [] (fl 0 0 1 0) = some 0x0007 := by decide

/-- Vector I-43, N = 1, V = 0. -/
theorem test_blt : nextAddress 0x8 0xD3F9 [] (fl 1 0 0 0) = some 0x0003 := by decide

/-- Vector D-3: N = V = 1 is not taken. -/
theorem test_blt_not : nextAddress 0x8 0xD3F9 [] (fl 1 0 0 1) = some 0x0009 := by decide

/-- Vector I-44. -/
theorem test_bgt : nextAddress 0x4 0xD800 [] (fl 0 0 0 0) = some 0x0006 := by decide

/-- Vector D-3: Z = 1 is not taken. -/
theorem test_bgt_not : nextAddress 0x4 0xD800 [] (fl 0 0 1 0) = some 0x0005 := by decide

/-- Vector I-45. -/
theorem test_bltu : nextAddress 0x0 0xE00A [] (fl 0 0 0 0) = some 0x000C := by decide

/-- Vector D-3: C = 1 is not taken. -/
theorem test_bltu_not : nextAddress 0x0 0xE00A [] (fl 0 1 0 0) = some 0x0001 := by decide

/-- Vector I-46. -/
theorem test_bgtu : nextAddress 0x300 0xEA00 [] (fl 0 1 0 0) = some 0x0102 := by decide

/-- Vector D-3: C = Z = 1 is not taken. -/
theorem test_bgtu_not : nextAddress 0x300 0xEA00 [] (fl 0 1 1 0) = some 0x0301 := by decide

/-! ## ALU and decoder vectors -/

/-- Vectors A-2, A-5, A-11, A-13, A-17 and A-18. -/
theorem test_alu_additive :
    aluFunction 3 0x7FFF 1 false = { fc := 0x8000, c16 := false, ovf := true }
    ∧ aluFunction 3 0xFFFF 0xFFFF true = { fc := 0xFFFF, c16 := true, ovf := false }
    ∧ aluFunction 2 0x7FFF 0xFFFF true = { fc := 0x8000, c16 := false, ovf := true }
    ∧ aluFunction 2 0xFFFF 0x7FFF true = { fc := 0x8000, c16 := true, ovf := false }
    ∧ aluFunction 2 0x8000 0 false = { fc := 0x7FFF, c16 := true, ovf := true }
    ∧ aluFunction 1 3 5 true = { fc := 2, c16 := true, ovf := false } := by decide

/-- Vectors A-26, A-27, A-28, A-29 and A-30. -/
theorem test_alu_routes :
    aluFunction 0 0x1234 0x5678 true = { fc := 0, c16 := false, ovf := false }
    ∧ (aluFunction 7 0x1234 0x5678 false).fc = 0xFFFF
    ∧ aluRoute 2 0x1234 0x5678 0xAA = (0, 0x5678) ∧ aluRoute 1 0x1234 0x5678 0xAA = (0x1234, 0)
    ∧ (alu 0x1111 0x2222 false 3 0 AluLines.flowThrough { aluA := 5, aluB := 6, aluF := 0xAA }).f = some 0x11BB := by
  decide

/-- Vectors AL-2, AL-3, AL-4 and AL-5. -/
theorem test_alu_latches :
    let run (lines : AluLines) := alu 0x1111 0x2222 false 3 3 lines { aluA := 5, aluB := 6, aluF := 0xAA }
    let all := AluLines.flowThrough
    (run { all with ftab := false }).f = some 0x000B
    ∧ (run { all with ftf := false }).f = some 0x00AA ∧ (run { all with ftf := false }).zero = false
    ∧ (run { all with oef := false }).f = none
    ∧ (run { all with ena := false, enb := false, enf := false }).latches = { aluA := 5, aluB := 6, aluF := 0xAA } := by
  decide

/-- Vector D-1, some of its rows; and the gate-level form gives the same. -/
theorem test_control_words :
    controlWord (fl 0 0 0 0) 22 = 0x1F3D82 ∧ controlWord (fl 0 0 0 1) 26 = 0x601000
    ∧ controlWord (fl 0 1 1 0) 29 = 0x600000 ∧ controlWord (fl 0 1 0 0) 31 = 0x1C0D60
    ∧ pld 0x016 = 0x1F3D82 ∧ pld 0x03A = 0x601000 ∧ pld 0x0DD = 0x600000 ∧ pld 0x09F = 0x1C0D60 := by decide

/-- Vectors D-1 and D-4 through `decode(index: u32) -> u32` of the gate-level form: bit 9 and above are ignored. -/
theorem test_gate_level_interface :
    pldU32 0x03A = 0x601000 ∧ pldU32 0x09E = 0x1C0DE0 ∧ pldU32 0x200 = 0x600000 ∧ pldU32 0xFFFFFE16 = 0x1F3D82 := by decide

/-! ## The host interface, reset and memory -/

/-- 60_exceptions.md R411: an answer outside 16 bits is refused; a LOAD is in MEM here. -/
theorem test_load_answer_refused :
    (match step { quiet with exmem := { ctl := 0x5E4D88#23, y := 4, storeOp := 0, selC := 1 }
                             data := { answers := [65536], calls := [] } } with
      | .refused r => some r
      | _ => none) = some (.loadAnswerOutOfRange 65536) := by decide

/-- Vectors of R-1: a resetting step counts down and fetches nothing. -/
theorem test_resetting_step : (nextOf (step { quiet with rc := 2 })).map (fun t => (t.rc, t.isResetting, t.pc, t.ifid.ins))
    = some (1, true, 0, 0) := by decide

/-- Power-on (R434), but for the number of resetting steps, which is open. -/
theorem test_reset : State.reset.pc = 0 ∧ State.reset.flags = fl 0 0 0 0 ∧ State.reset.regs.read 7 = 0
    ∧ State.reset.imem.wf = true := by decide

/-- The host's registers: refused outside 0 to 7 and outside 16 bits (R411). -/
theorem test_register_accessors : (quiet.setRegister 7 0xFFFF).toOption.map (fun t => t.regs.read 7) = some 0xFFFF
    ∧ (quiet.setRegister 8 0).toOption = none ∧ (quiet.setRegister 7 0x10000).toOption = none
    ∧ (quiet.getRegister 8).toOption = none := by decide

/-- A word past the array reads as NOP (20_memory.md R71). -/
theorem test_fetch : (quiet.setInstructions [0x2105, 0, 0x0800]).fetch 2 = 0x0800
    ∧ (quiet.setInstructions [0x2105, 0, 0x0800]).fetch 3 = 0
    ∧ (quiet.setInstructions [0x2105, 0, 0x0800]).imem = [(0, 0x2105), (2, 0x0800)] := by decide

/-- The word placed for the next step is run by it (`withFetchWord`). -/
theorem test_placed_word : (nextOf (step (quiet.withFetchWord 16 0x23FF))).map (fun t => t.settle.regs.read 3)
    = some 0xFFFF := by decide

/-! ## Witnesses: a concrete state and operands for the hypotheses of every obligation that has any -/

/-- A core whose host has loaded `LI r1, 5; ADDI r2, r1, 1; HLT`, with the first word about to be fetched. -/
def started : State := ({ quiet with pc := 0 } : State).setInstructions [0x2105, 0x7221, 0x0800]

/-- ADDI with destination r1 in EX: an ALU producer and a flag writer. -/
def aluInEx : State := { quiet with idex := { IdEx.bubble with ctl := 0x5C0DA8#23, left := 4, right := 1, selC := 1 } }

/-- LI with destination r1 in EX: a store-operand producer. -/
def liInEx : State := { quiet with idex := { IdEx.bubble with ctl := 0x7F0004#23, storeOp := 9, selC := 1 } }

/-- LOAD with destination r1 in MEM, its answer settled. -/
def loadInMem : State :=
  { quiet with exmem := { ctl := 0x5E4D88#23, y := 4, storeOp := 0, selC := 1 }, data := { answers := [0x21], calls := [] } }

/-- STORE in MEM. -/
def storeInMem : State := { quiet with exmem := { ctl := 0x018D90#23, y := 4, storeOp := 7, selC := 0 } }

/-- JMP in EX. -/
def jmpInEx : State := { quiet with pc := 9, idex := { IdEx.bubble with ctl := 0x601000#23, off := 0xFFFE } }

/-- HLT in EX, and an ALU instruction in MEM before it. -/
def hltInEx : State :=
  { quiet with
    idex := { IdEx.bubble with ctl := 0x600001#23 }
    exmem := { ctl := 0x5C0DA8#23, y := 6, storeOp := 0, selC := 4 } }

/-- A halted core. -/
def halted : State := { quiet with exmem := { ExMem.bubble with ctl := 0x600001#23 } }

theorem quiet_words : quiet.wordsInTable :=
  ⟨⟨fl 0 0 0 0, 0, by decide⟩, ⟨fl 0 0 0 0, 0, by decide⟩, ⟨fl 0 0 0 0, 0, by decide⟩⟩

/-- Every instruction named in a completion statement is ready to run in the idle core. -/
theorem quiet_ready {i : Instr} (h : quiet.issues i = true) : quiet.readyFor i :=
  ⟨quiet_words.1, by decide, h⟩

theorem witness_IgnoredBitsHaveNoEffect :
    ∃ t u, exec (.nop 0x400) quiet = .next t ∧ exec (Instr.canonical (.nop 0x400)) quiet = .next u := ⟨_, _, rfl, rfl⟩

theorem witness_TableEqualsGateForm : (0 < 23 ∧ 22 < 23) ∧ ((0x03A : BitVec 9).toNat < 512) := by decide

theorem witness_CarryUsersTakeC0FromTheCarryFlag :
    ((30 : Opcode) = 30 ∨ (30 : Opcode) = 31) ∧ ((31 : Opcode) = 30 ∨ (31 : Opcode) = 31) ∧ (5 ≠ 6 ∧ 7 ≠ 6) := by decide

/-- Each clause at the ends of its range; for the last, bit 6 does differ. -/
theorem witness_OnlyOpcodesAbove23DependOnFlags :
    (23 : Opcode).toNat < 24 ∧ (24 ≤ (24 : Opcode).toNat ∧ (24 : Opcode).toNat ≤ 29)
    ∧ (24 ≤ (29 : Opcode).toNat ∧ (29 : Opcode).toNat ≤ 29) ∧ 30 ≤ (30 : Opcode).toNat ∧ 30 ≤ (31 : Opcode).toNat
    ∧ (fl 0 1 0 0).c = (fl 1 1 1 1).c
    ∧ (controlWord (fl 0 0 0 0) 31).getLsbD 6 ≠ (controlWord (fl 0 1 0 0) 31).getLsbD 6 := by decide

theorem witness_LogicFunctionsGiveNoCarry : ∀ i : BitVec 3, i ∈ [0, 4, 5, 6, 7] → i = 0 ∨ i = 4 ∨ i = 5 ∨ i = 6 ∨ i = 7 := by
  decide

theorem witness_NoInstructionReadsTheAluLatches : inDecoderTable aluInEx.idex.ctl := ⟨fl 0 0 0 0, 14, by decide⟩

/-- LI leaves both ports unused, NOT port B; the last clause at opcode 23 and at opcode 0. -/
theorem witness_UnusedPortNeverStallsNorForwards :
    (tableWord (.li 3 5) quiet.flags).leftUnused = true ∧ (tableWord (.li 3 5) quiet.flags).rightUnused = true
    ∧ (tableWord (.not 3 1 0x1F) quiet.flags).rightUnused = true
    ∧ (tableWord (.rsvd23 0) quiet.flags).leftUnused = true ∧ (tableWord (.rsvd23 0) quiet.flags).rightUnused = true
    ∧ (Instr.opcode (.rsvd23 0)).toNat < 24
    ∧ (tableWord (.nop 0) quiet.flags).leftUnused = true ∧ (tableWord (.nop 0) quiet.flags).rightUnused = true
    ∧ (Instr.opcode (.nop 0)).toNat < 24 := by decide

/-- `ADD r2, r1, r1` behind ADDI r1 and behind LI r1: both ports match in EX. -/
theorem witness_ProducerInExForwardsOrStalls :
    (tableWord (.add 2 1 1 0) quiet.flags).leftUnused = false ∧ (tableWord (.add 2 1 1 0) quiet.flags).rightUnused = false
    ∧ writesReg aluInEx.idex.ctl aluInEx.idex.selC (fieldA (encode (.add 2 1 1 0))) = true
    ∧ writesReg aluInEx.idex.ctl aluInEx.idex.selC (fieldB (encode (.add 2 1 1 0))) = true
    ∧ aluInEx.idex.ctl.writeBackSrc = false
    ∧ writesReg liInEx.idex.ctl liInEx.idex.selC (fieldA (encode (.add 2 1 1 0))) = true
    ∧ writesReg liInEx.idex.ctl liInEx.idex.selC (fieldB (encode (.add 2 1 1 0))) = true
    ∧ liInEx.idex.ctl.writeBackSrc = true := by decide

/-- `ADD r2, r1, r1` with LOAD r1 in MEM and nothing in EX; the same with CMP, a flag writer that writes no register, in
EX, where it is not held. -/
theorem witness_ProducerInMemForwards :
    (tableWord (.add 2 1 1 0) loadInMem.flags).leftUnused = false
    ∧ (tableWord (.add 2 1 1 0) loadInMem.flags).rightUnused = false
    ∧ ¬ writesReg loadInMem.idex.ctl loadInMem.idex.selC (fieldA (encode (.add 2 1 1 0))) = true
    ∧ ¬ writesReg loadInMem.idex.ctl loadInMem.idex.selC (fieldB (encode (.add 2 1 1 0))) = true
    ∧ writesReg loadInMem.exmem.ctl loadInMem.exmem.selC (fieldA (encode (.add 2 1 1 0))) = true
    ∧ writesReg loadInMem.exmem.ctl loadInMem.exmem.selC (fieldB (encode (.add 2 1 1 0))) = true
    ∧ ({ loadInMem with idex := { IdEx.bubble with ctl := 0x000D60#23 } } : State).holds (.add 2 1 1 0) = false := by decide

/-- `ADD r2, r1, r3` with LOAD r1 in MEM and ADDI r3 in EX: one port from MEM, one from EX, not held (R235, R243); `LI r3` in
EX instead: held (R234). -/
theorem test_mem_and_ex_forward :
    (({ loadInMem with idex := { IdEx.bubble with ctl := 0x5C0DA8#23, selC := 3 } } : State).hazardOf
        (encode (.add 2 1 3 0)) (tableWord (.add 2 1 3 0) loadInMem.flags)).selA = .fromMem
    ∧ (({ loadInMem with idex := { IdEx.bubble with ctl := 0x5C0DA8#23, selC := 3 } } : State).hazardOf
        (encode (.add 2 1 3 0)) (tableWord (.add 2 1 3 0) loadInMem.flags)).selB = .fromEx
    ∧ ({ loadInMem with idex := { IdEx.bubble with ctl := 0x5C0DA8#23, selC := 3 } } : State).holds (.add 2 1 3 0) = false
    ∧ ({ loadInMem with idex := { IdEx.bubble with ctl := 0x7F0004#23, selC := 3 } } : State).holds (.add 2 1 3 0) = true := by
  decide

/-- BEQ (opcode 24) and SBC (opcode 31) behind ADDI. -/
theorem witness_FlagReaderWaitsForFlagWriter :
    24 ≤ (Instr.opcode (.beq 0 5)).toNat ∧ 24 ≤ (Instr.opcode (.sbc 3 4 5 0)).toNat ∧ aluInEx.idex.ctl.fi = true := by
  decide

/-- `ADD r2, r1, r1` behind LI r1 is held. -/
theorem witness_StallLastsOneCycle :
    liInEx.idex.ctl.j = false ∧ liInEx.holds (.add 2 1 1 0) = true ∧ ∃ t, exec (.add 2 1 1 0) liInEx = .next t :=
  ⟨by decide, by decide, _, rfl⟩

theorem witness_ForwardedPortsReadInProgramOrder :
    inDecoderTable aluInEx.idex.ctl ∧ aluInEx.holds (.add 2 1 1 0) = false
    ∧ (tableWord (.add 2 1 1 0) aluInEx.flags).leftUnused = false
    ∧ (tableWord (.add 2 1 1 0) aluInEx.flags).rightUnused = false :=
  ⟨⟨fl 0 0 0 0, 14, by decide⟩, by decide, by decide, by decide⟩

/-- Held: `ADD r2, r1, r1` behind LI r1; not held: the idle core. -/
theorem witness_StallingStatusPredictsTheStall :
    (({ liInEx with ifid := { ins := 0x3A24 } } : State).refusedAnswer = none
      ∧ ({ liInEx with ifid := { ins := 0x3A24 } } : State).isStalling = true)
    ∧ (quiet.refusedAnswer = none ∧ quiet.isStalling = false ∧ quiet.rc = 0 ∧ quiet.isHalted = false) := by decide

theorem witness_StepRunsTheInstructionInId :
    decode (idle 0 0x3B28 [] Flags.clear).ifid.ins = .add 3 1 2 0
    ∧ ((idle 0 0x3B28 [] Flags.clear).rc = 0 ∧ (idle 0 0x3B28 [] Flags.clear).isHalted = false)
    ∧ halted.isHalted = true ∧ 0 < ({ quiet with rc := 1 } : State).rc := by decide

theorem witness_FetchedWordRunsInTheNextStep :
    started.rc = 0 ∧ started.idex.ctl.hlt = false ∧ started.issues (.nop 0) = true ∧ ∃ t, exec (.nop 0) started = .next t :=
  ⟨by decide, by decide, by decide, _, rfl⟩

theorem witness_PlacedWordRunsAtOnce :
    started.imem.wf = true ∧ decodeTableWord 16 0x3B28 = some (.add 3 1 2 0) ∧ decodeTableWord 16 0 = some (.nop 0) := by
  decide

/-- For the statements about any running step: a step that answers, with each signal their clauses ask for. -/
theorem witness_running_steps :
    (∃ t, exec (.add 2 1 1 0) aluInEx = .next t) ∧ aluInEx.idex.ctl.fi = true
    ∧ (∃ t, exec (.add 2 1 1 0) liInEx = .next t) ∧ liInEx.idex.ctl.fi = false
    ∧ ((quiet.hazardOf (encode (.add 2 1 1 0)) (tableWord (.add 2 1 1 0) quiet.flags)).selA = .none
        ∧ (quiet.hazardOf (encode (.add 2 1 1 0)) (tableWord (.add 2 1 1 0) quiet.flags)).selB = .none
        ∧ ∃ t, exec (.add 2 1 1 0) quiet = .next t)
    ∧ (∃ t, exec (.nop 0) loadInMem = .next t) ∧ loadInMem.exmem.ctl.memLoad = true :=
  ⟨⟨_, rfl⟩, by decide, ⟨_, rfl⟩, by decide, ⟨by decide, by decide, _, rfl⟩, ⟨_, rfl⟩, by decide⟩

/-- Flush, stall and normal. -/
theorem witness_LatchCasesFlushStallNormal :
    (jmpInEx.idex.ctl.j = true ∧ ∃ t, exec (.nop 0) jmpInEx = .next t)
    ∧ (liInEx.idex.ctl.j = false ∧ liInEx.holds (.add 2 1 1 0) = true ∧ ∃ t, exec (.add 2 1 1 0) liInEx = .next t)
    ∧ (quiet.idex.ctl.j = false ∧ quiet.holds (.nop 0) = false ∧ ∃ t, exec (.nop 0) quiet = .next t) :=
  ⟨⟨by decide, _, rfl⟩, ⟨by decide, by decide, _, rfl⟩, ⟨by decide, by decide, _, rfl⟩⟩

theorem witness_HaltLosesThePrecedingWrite :
    hltInEx.rc = 0 ∧ hltInEx.exmem.ctl.hlt = false ∧ hltInEx.idex.ctl = 0x600001#23 ∧ ∃ t, step hltInEx = .next t :=
  ⟨by decide, by decide, by decide, _, rfl⟩

theorem witness_StepStopsOnlyOnHostMisuse :
    loadInMem.hostKeepsRange = true
    ∧ ∃ r, step { loadInMem with data := { answers := [65536], calls := [] } } = .refused r := ⟨by decide, _, rfl⟩

theorem witness_AtMostOneCallInAStep :
    (loadInMem.wordsInTable ∧ loadInMem.rc = 0 ∧ loadInMem.isHalted = false ∧ loadInMem.exmem.ctl = 0x5E4D88#23
      ∧ ∃ t, step loadInMem = .next t)
    ∧ (storeInMem.wordsInTable ∧ storeInMem.rc = 0 ∧ storeInMem.isHalted = false ∧ storeInMem.exmem.ctl = 0x018D90#23
      ∧ ∃ t, step storeInMem = .next t)
    ∧ (quiet.wordsInTable ∧ quiet.exmem.ctl ≠ 0x5E4D88#23 ∧ quiet.exmem.ctl ≠ 0x018D90#23 ∧ ∃ t, step quiet = .next t)
    ∧ (halted.wordsInTable ∧ halted.isHalted = true ∧ ∃ t, step halted = .next t)
    ∧ (({ quiet with rc := 1 } : State).wordsInTable ∧ ({ quiet with rc := 1 } : State).isResetting = true
      ∧ ∃ t, step ({ quiet with rc := 1 } : State) = .next t) :=
  ⟨⟨⟨quiet_words.1, ⟨fl 0 0 0 0, 2, by decide⟩, quiet_words.1⟩, by decide, by decide, by decide, _, rfl⟩,
   ⟨⟨quiet_words.1, ⟨fl 0 0 0 0, 3, by decide⟩, quiet_words.1⟩, by decide, by decide, by decide, _, rfl⟩,
   ⟨quiet_words, by decide, by decide, _, rfl⟩,
   ⟨⟨quiet_words.1, ⟨fl 0 0 0 0, 1, by decide⟩, quiet_words.1⟩, by decide, _, rfl⟩,
   ⟨quiet_words, by decide, _, rfl⟩⟩

theorem witness_AddSubCmpComplete :
    quiet.readyFor (.add 3 1 2 0) ∧ quiet.readyFor (.sub 3 1 2 0) ∧ quiet.readyFor (.cmp 0 1 2 0) :=
  ⟨quiet_ready (by decide), quiet_ready (by decide), quiet_ready (by decide)⟩

theorem witness_LogicComplete :
    quiet.readyFor (.and 3 1 2 0) ∧ quiet.readyFor (.or 3 1 2 0) ∧ quiet.readyFor (.xor 3 1 2 0) ∧ quiet.readyFor (.not 3 1 0) :=
  ⟨quiet_ready (by decide), quiet_ready (by decide), quiet_ready (by decide), quiet_ready (by decide)⟩

theorem witness_ImmediateArithmeticCompletes :
    quiet.readyFor (.addi 3 1 0x1F) ∧ quiet.readyFor (.subi 3 1 0x10) ∧ quiet.readyFor (.cmpi 0 1 0) :=
  ⟨quiet_ready (by decide), quiet_ready (by decide), quiet_ready (by decide)⟩

theorem witness_ImmediateLogicCompletes :
    quiet.readyFor (.andi 3 1 0x10) ∧ quiet.readyFor (.ori 3 1 0x0F) ∧ quiet.readyFor (.xori 3 1 0x1F) :=
  ⟨quiet_ready (by decide), quiet_ready (by decide), quiet_ready (by decide)⟩

theorem witness_CarryArithmeticCompletes : quiet.readyFor (.adc 3 1 2 0) ∧ quiet.readyFor (.sbc 3 1 2 0) :=
  ⟨quiet_ready (by decide), quiet_ready (by decide)⟩

theorem witness_LoadCompletes : quiet.readyFor (.load 3 1 0x1E) := quiet_ready (by decide)

theorem witness_StoreCompletes : quiet.readyFor (.store 2 1 5) := quiet_ready (by decide)

theorem witness_LoadImmediateCompletes : quiet.readyFor (.li 3 0xFF) ∧ quiet.readyFor (.lui 3 0xAB) :=
  ⟨quiet_ready (by decide), quiet_ready (by decide)⟩

theorem witness_NopAndReservedComplete : quiet.readyFor (.nop 0) ∧ quiet.readyFor (.rsvd19 0) ∧ quiet.readyFor (.rsvd23 0) :=
  ⟨quiet_ready (by decide), quiet_ready (by decide), quiet_ready (by decide)⟩

theorem witness_HltCompletes :
    quiet.rc = 0 ∧ quiet.readyFor (.hlt 0) ∧ ∃ t, exec (.hlt 0) quiet = .next t ∧ ∃ u, step t = .next u :=
  ⟨by decide, quiet_ready (by decide), _, rfl, _, rfl⟩

theorem witness_JumpsComplete :
    quiet.readyFor (.jmp 0 0x3FE) ∧ quiet.readyFor (.jr 0 7 0 0) ∧ quiet.readyFor (.jalr 7 6 0 0) :=
  ⟨quiet_ready (by decide), quiet_ready (by decide), quiet_ready (by decide)⟩

theorem witness_BranchesComplete :
    quiet.readyFor (.beq 0 5) ∧ quiet.readyFor (.bne 0 5) ∧ quiet.readyFor (.blt 0 5) ∧ quiet.readyFor (.bgt 0 5)
    ∧ quiet.readyFor (.bltu 0 5) ∧ quiet.readyFor (.bgtu 0 5) :=
  ⟨quiet_ready (by decide), quiet_ready (by decide), quiet_ready (by decide), quiet_ready (by decide),
   quiet_ready (by decide), quiet_ready (by decide)⟩

theorem witness_SettledStateIsReached :
    quiet.rc = 0 ∧ quiet.isHalted = false ∧ ∃ a, step quiet = .next a ∧ a.isHalted = false
    ∧ ∃ b, step a = .next b ∧ b.isHalted = false ∧ ∃ c, step b = .next c :=
  ⟨by decide, by decide, _, rfl, by decide, _, rfl, by decide, _, rfl⟩

theorem witness_StepsFollowProgramOrder :
    (aluInEx.rc = 0 ∧ aluInEx.noHaltInFlight = true ∧ inDecoderTable aluInEx.idex.ctl ∧ ∃ t, step aluInEx = .next t)
    ∧ (jmpInEx.rc = 0 ∧ jmpInEx.noHaltInFlight = true ∧ inDecoderTable jmpInEx.idex.ctl ∧ ∃ t, step jmpInEx = .next t) :=
  ⟨⟨by decide, by decide, ⟨fl 0 0 0 0, 14, by decide⟩, _, rfl⟩, ⟨by decide, by decide, ⟨fl 0 0 0 0, 20, by decide⟩, _, rfl⟩⟩

theorem witness_ResettingStepOnlyCounts : 0 < ({ quiet with rc := 1 } : State).rc := by decide

theorem witness_ProgramStartsAtAddressZero : 0 < Config.resetCycles := Nat.succ_pos _

theorem witness_RunStepsUntilHalted :
    halted.isHalted = true ∧ hltInEx.runsTo { halted with
      pc := 2, memwb := { ctl := 0x5C0DA8#23, y := 6, data := 0, selC := 4 } } := ⟨by decide, 1, by decide⟩

theorem witness_RegisterAccessorsRefuseMisuse : 8 ≤ 8 ∧ (0 < 8 ∧ 7 < 8) ∧ (7 < 8 ∧ 2 ^ 16 ≤ 65536) ∧ (7 < 8 ∧ 65535 < 2 ^ 16) := by decide

theorem witness_FetchReadsTheHostsArray : ∃ t, step started = .next t := ⟨_, rfl⟩

theorem witness_StepKeepsWordsInTheTable : quiet.wordsInTable ∧ ∃ t, step quiet = .next t := ⟨quiet_words, _, rfl⟩

/-- After the first fetch of `started`: the word in ID is the one at address 0. -/
theorem witness_StepKeepsPcRelations :
    ({ started with pc := 1, ifid := { ins := 0x2105 } } : State).pcRelations
    ∧ ∃ t, step { started with pc := 1, ifid := { ins := 0x2105 } } = .next t :=
  ⟨⟨.inr (by decide), .inl (by decide)⟩, _, rfl⟩

theorem witness_StepKeepsResetQuiet :
    ({ started with rc := 1, ifid := IfId.bubble } : State).quietWhileResetting ∧ started.imem.wf = true
    ∧ 1 ≤ Config.resetCycles ∧ ∃ t, step { started with rc := 1, ifid := IfId.bubble } = .next t :=
  ⟨fun _ => ⟨rfl, rfl, rfl, rfl, rfl⟩, by decide, Nat.succ_pos _, _, rfl⟩

end Sys2Proof.Tests
end

section
/-! PROOFS. The decoder of control words (40_decoder.md): the table read through an index made of flags and opcode, the
gate-level form case by case as the table is written, and the statements about both. -/

namespace Sys2Proof.Machine

/-! ## The index (40_decoder.md R141) -/

@[simp] theorem Flags.ofNibble_nibble (f : Flags) : Flags.ofNibble f.nibble = f := by
  obtain ⟨n, c, z, v⟩ := f
  revert n c z v
  decide

@[simp] theorem indexFlags_decoderIndex (f : Flags) (op : Opcode) : indexFlags (decoderIndex f op) = f :=
  calc Flags.ofNibble ((f.nibble ++ op).extractLsb' 5 4)
    _ = Flags.ofNibble f.nibble := by rw [BitVec.extractLsb'_append_eq_left]
    _ = f := Flags.ofNibble_nibble f

@[simp] theorem indexOpcode_decoderIndex (f : Flags) (op : Opcode) : indexOpcode (decoderIndex f op) = op :=
  BitVec.extractLsb'_append_eq_right

/-- The three kinds of opcode the table distinguishes (40_decoder.md R170). -/
theorem opcode_cases (op : Opcode) : op.toNat < 24 ∨ op.toNat ∈ [24, 25, 26, 27, 28, 29] ∨ (op = 30 ∨ op = 31) := by
  simp only [List.mem_cons, List.not_mem_nil, or_false]
  bv_omega

/-! ## The reference table (40_decoder.md R168 to R171) -/

/-- The entry at an index is the control word of the flags and the opcode in the index. -/
theorem lookup_eq (index : BitVec 9) : lookup index = controlWord (indexFlags index) (indexOpcode index) := by
  simp [lookup, decoderTable]

@[simp] theorem lookup_decoderIndex (f : Flags) (op : Opcode) : lookup (decoderIndex f op) = controlWord f op := by
  simp [lookup_eq]

/-- Each branch is taken under some flags and not taken under others. -/
theorem exists_branchTaken_eq (op : Nat) (h : op ∈ [24, 25, 26, 27, 28, 29]) (t : Bool) :
    ∃ f, branchTaken op f = t := by
  simp only [List.mem_cons, List.not_mem_nil, or_false] at h
  rcases h with rfl | rfl | rfl | rfl | rfl | rfl
  · exact ⟨{ Flags.clear with z := t }, rfl⟩
  · exact ⟨{ Flags.clear with z := !t }, Bool.not_not t⟩
  · exact ⟨{ Flags.clear with n := t }, by simp [branchTaken, Flags.clear]⟩
  · exact ⟨{ Flags.clear with n := !t }, by simp [branchTaken, Flags.clear]⟩
  · exact ⟨{ Flags.clear with c := !t }, Bool.not_not t⟩
  · exact ⟨{ Flags.clear with c := t }, Bool.and_true t⟩

/-- C is the only flag in the word of ADC and SBC, and it stands in bit 6 alone (40_decoder.md R169). -/
theorem controlWord_carry_eq_or (op : Opcode) (f : Flags) (h : op = 30 ∨ op = 31) :
    controlWord f op = controlWord Flags.clear op ||| if f.c then BitVec.twoPow 23 6 else 0#23 := by
  rw [controlWord_carry op f h]
  generalize f.c = c
  rcases h with rfl | rfl <;> revert c <;> decide

theorem controlWord_carry_c0 (op : Opcode) (f : Flags) (h : op = 30 ∨ op = 31) :
    (controlWord f op).getLsbD 6 = f.c := by
  rw [controlWord_carry op f h]
  generalize f.c = c
  rcases h with rfl | rfl <;> revert c <;> decide

theorem controlWord_carry_getLsbD (op : Opcode) (f : Flags) (h : op = 30 ∨ op = 31) {b : Nat} (hb : b ≠ 6) :
    (controlWord f op).getLsbD b = (controlWord Flags.clear op).getLsbD b := by
  rw [controlWord_carry_eq_or op f h]
  cases f.c <;> simp [hb.symm]

/-! ## The gate-level form (40_decoder.md R172, R173) -/

/-- The gate-level word of an opcode under the flags `f`: the equations over the opcode's bits and the flags. -/
def gateWord (f : Flags) (op : Opcode) : Ctl :=
  BitVec.ofNat 23 (packOutputs (pldOutputs (op.getLsbD 4) (op.getLsbD 3) (op.getLsbD 2) (op.getLsbD 1) (op.getLsbD 0)
    f.n f.c f.z f.v))

theorem pld_eq (index : BitVec 9) : pld index = gateWord (indexFlags index) (indexOpcode index) := by
  simp [pld, gateWord, indexFlags, Flags.ofNibble, indexOpcode]

/-- Where `o4` or `o3` is clear, that is below opcode 24, no flag changes an equation: J has two products with a flag but
without `o3`, and its product `o4 & !o3 & o2 & !o1` absorbs them. -/
theorem pldOutputs_fixed (o4 o3 o2 o1 o0 n c z v : Bool) (h : o4 = false ∨ o3 = false) :
    pldOutputs o4 o3 o2 o1 o0 n c z v = pldOutputs o4 o3 o2 o1 o0 false false false false := by
  rcases h with rfl | rfl
  · simp [pldOutputs]
  · cases o4 <;> cases o2 <;> cases o1 <;> simp [pldOutputs]

/-- Where `o4` to `o1` are set, that is at the opcodes 30 and 31, only C enters an equation. -/
theorem pldOutputs_carry (o0 n c z v : Bool) :
    pldOutputs true true true true o0 n c z v = pldOutputs true true true true o0 false c false false := by
  simp [pldOutputs]

theorem gateWord_fixed (op : Opcode) (f : Flags) (h : op.toNat < 24) : gateWord f op = gateWord Flags.clear op := by
  have hbits : op.getLsbD 4 = false ∨ op.getLsbD 3 = false := by
    revert op
    decide
  rw [gateWord, pldOutputs_fixed _ _ _ _ _ _ _ _ _ hbits]
  rfl

theorem gateWord_carry (op : Opcode) (f : Flags) (h : op = 30 ∨ op = 31) :
    gateWord f op = gateWord { n := false, c := f.c, z := false, v := false } op := by
  rcases h with rfl | rfl
  · exact congrArg (BitVec.ofNat 23 <| packOutputs ·) (pldOutputs_carry false f.n f.c f.z f.v)
  · exact congrArg (BitVec.ofNat 23 <| packOutputs ·) (pldOutputs_carry true f.n f.c f.z f.v)

/-- The equations give the table's word under any flags and for any opcode. -/
theorem gateWord_eq_controlWord (f : Flags) (op : Opcode) : gateWord f op = controlWord f op := by
  rcases opcode_cases op with fixed | branch | carry
  · rw [gateWord_fixed op f fixed, controlWord_fixed op f fixed]
    revert op
    decide
  · rw [controlWord_branch op f branch]
    obtain ⟨n, c, z, v⟩ := f
    revert op n c z v
    decide
  · rw [gateWord_carry op f carry, controlWord_carry op f carry]
    generalize f.c = c
    rcases carry with rfl | rfl <;> revert c <;> decide

theorem pld_eq_lookup (index : BitVec 9) : pld index = lookup index := by
  rw [pld_eq, lookup_eq, gateWord_eq_controlWord]

/-! ## The statements -/

/-- Settles O5: both forms are the word of the flags and the opcode in the index. -/
theorem tableEqualsGateForm : Obligations.TableEqualsGateForm := by
  intro index b _
  rw [pld_eq_lookup]

/-- Settles O7, by the law of the branch words read through the table. -/
theorem branchWordsFollowThePredicates : Obligations.BranchWordsFollowThePredicates := by
  intro n c z v
  have word_eq (op : Opcode) (h : op.toNat ∈ [24, 25, 26, 27, 28, 29]) :
      lookup (decoderIndex { n := n, c := c, z := z, v := v } op)
        = if branchTaken op.toNat { n := n, c := c, z := z, v := v } = true then 0x601000#23 else 0x600000#23 :=
    (lookup_decoderIndex _ op).trans (controlWord_branch op _ h)
  simp only [word_eq 24 (by decide), word_eq 25 (by decide), word_eq 26 (by decide), word_eq 27 (by decide),
    word_eq 28 (by decide), word_eq 29 (by decide)]
  simp [branchTaken]

/-- Settles O8: C stands in bit 6 of both words and no flag elsewhere. -/
theorem carryUsersTakeC0FromTheCarryFlag : Obligations.CarryUsersTakeC0FromTheCarryFlag := by
  intro op f g h
  simp only [lookup_decoderIndex]
  refine ⟨controlWord_carry_c0 op f h, fun b hb => ?_⟩
  rw [controlWord_carry_getLsbD op f h hb, controlWord_carry_getLsbD op g h hb]

/-- Settles O9, range by range of the opcodes. -/
theorem onlyOpcodesAbove23DependOnFlags : Obligations.OnlyOpcodesAbove23DependOnFlags := by
  intro op
  simp only [lookup_decoderIndex]
  refine ⟨fun below f g => ?_, fun from24 to29 => ?_, fun from30 f g => ?_⟩
  · rw [controlWord_fixed op f below, controlWord_fixed op g below]
  · have branch : op.toNat ∈ [24, 25, 26, 27, 28, 29] := by
      simp only [List.mem_cons, List.not_mem_nil, or_false]
      omega
    have word_eq (f : Flags) : controlWord f op = branchWord (branchTaken op.toNat f) := controlWord_branch op f branch
    obtain ⟨f, hf⟩ := exists_branchTaken_eq op.toNat branch false
    obtain ⟨g, hg⟩ := exists_branchTaken_eq op.toNat branch true
    refine ⟨fun f => ?_, ⟨f, ?_⟩, ⟨g, ?_⟩⟩
    · rw [word_eq]
      cases branchTaken op.toNat f
      · exact .inl rfl
      · exact .inr rfl
    · rw [word_eq, hf]
      rfl
    · rw [word_eq, hg]
      rfl
  · have carry : op = 30 ∨ op = 31 := by bv_omega
    refine ⟨fun hc => ?_, fun b => ?_⟩
    · rw [controlWord_carry op f carry, controlWord_carry op g carry, hc]
    · contrapose!
      intro hb
      rw [controlWord_carry_getLsbD op f carry hb, controlWord_carry_getLsbD op g carry hb]

/-- Settles O10: both rows are the idle row, whatever the flags. -/
theorem reservedOpcodesGiveTheNopWord : Obligations.ReservedOpcodesGiveTheNopWord := by
  intro f
  simp only [lookup_decoderIndex]
  rw [controlWord_fixed 19 f (by decide), controlWord_fixed 23 f (by decide)]
  decide

end Sys2Proof.Machine
end

section
/-! PROOFS. The function block of the ALU (41_alu.md R204 to R207): the adder's sum, carry out and overflow as arithmetic,
each function code as the adder or a logic value, and the statements about the carry out and the overflow. -/

namespace Sys2Proof.Machine

/-! ## The adder (41_alu.md R205, R206) -/

/-- The top bit of a number below `2 ^ (i + 1)` is set from `2 ^ i` on. -/
theorem testBit_eq_decide_two_pow_le {i n : Nat} (h : n < 2 ^ (i + 1)) : n.testBit i = decide (2 ^ i ≤ n) := by
  by_cases hle : 2 ^ i ≤ n
  · rw [Nat.testBit_of_two_pow_le_and_two_pow_add_one_gt hle h, decide_eq_true hle]
  · rw [Nat.testBit_lt_two_pow (Nat.lt_of_not_le hle), decide_eq_false hle]

/-- The sum of two words and a carry fits in 17 bits. -/
theorem toNat_add_carry_lt (x y : Word) (c : Bool) : x.toNat + y.toNat + c.toNat < 2 ^ 17 := by
  have hc := c.toNat_le
  omega

/-- The sum of the low 15 bits and a carry fits in 16 bits. -/
theorem low_add_carry_lt (x y : Word) (c : Bool) : x.toNat % 2 ^ 15 + y.toNat % 2 ^ 15 + c.toNat < 2 ^ 16 := by
  have hc := c.toNat_le
  omega

theorem aluAdd_fc_toNat (x y : Word) (c : Bool) :
    (aluAdd x y c).fc.toNat = (x.toNat + y.toNat + c.toNat) % 2 ^ 16 := BitVec.toNat_ofNat _ _

theorem aluAdd_c16 (x y : Word) (c : Bool) :
    (aluAdd x y c).c16 = decide (2 ^ 16 ≤ x.toNat + y.toNat + c.toNat) :=
  testBit_eq_decide_two_pow_le (toNat_add_carry_lt x y c)

/-- The carry into bit 15 exclusive-or the carry out of it. -/
theorem aluAdd_ovf_eq_carries (x y : Word) (c : Bool) :
    (aluAdd x y c).ovf
      = (decide (2 ^ 15 ≤ x.toNat % 2 ^ 15 + y.toNat % 2 ^ 15 + c.toNat) != (aluAdd x y c).c16) := by
  rw [← testBit_eq_decide_two_pow_le (low_add_carry_lt x y c)]
  rfl

/-- The result and the carry out together are the exact sum. -/
theorem aluAdd_sum17 (x y : Word) (c : Bool) :
    (aluAdd x y c).fc.toNat + 2 ^ 16 * (aluAdd x y c).c16.toNat = x.toNat + y.toNat + c.toNat := by
  have hc16 : (aluAdd x y c).c16.toNat = (x.toNat + y.toNat + c.toNat) / 2 ^ 16 := by
    have hlt := toNat_add_carry_lt x y c
    refine (Nat.toNat_testBit _ 16).trans (Nat.mod_eq_of_lt ?_)
    omega
  rw [aluAdd_fc_toNat, hc16, Nat.mod_add_div]

/-- Bit 15 counts `-2 ^ 15` in a signed word, where it counts `2 ^ 15` in an unsigned one. -/
theorem toInt_eq_low_sub_sign (x : Word) :
    x.toInt = ((x.toNat % 2 ^ 15 : Nat) : Int) - 2 ^ 15 * ((x.toNat / 2 ^ 15 : Nat) : Int) := by
  have hx := x.isLt
  rw [BitVec.toInt_eq_toNat_cond]
  split <;> omega

/-- Let `low` be the sum of the low 15 bits and the carry, and `signs` the number of addends with bit 15 set. The signed sum
is `low - 2 ^ 15 * signs` and the unsigned sum `low + 2 ^ 15 * signs`, so for each of the three values of `signs` the signed
sum is out of range exactly when the carries into and out of bit 15 differ (41_alu.md R206). -/
theorem aluAdd_ovf (x y : Word) (c : Bool) :
    (aluAdd x y c).ovf = outsideSigned (x.toInt + y.toInt + c.toNat) := by
  have hlow := low_add_carry_lt x y c
  have hx := x.isLt
  have hy := y.isLt
  rw [aluAdd_ovf_eq_carries, aluAdd_c16, toInt_eq_low_sub_sign x, toInt_eq_low_sub_sign y, Bool.eq_iff_iff]
  simp only [outsideSigned, bne_iff_ne, ne_eq, decide_eq_decide, Bool.or_eq_true, decide_eq_true_eq]
  omega

/-! ## The function codes (41_alu.md R204) -/

@[simp] theorem aluFunction_one (r s : Word) (c0 : Bool) : aluFunction 1#3 r s c0 = aluAdd (~~~r) s c0 := rfl
@[simp] theorem aluFunction_two (r s : Word) (c0 : Bool) : aluFunction 2#3 r s c0 = aluAdd r (~~~s) c0 := rfl
@[simp] theorem aluFunction_three (r s : Word) (c0 : Bool) : aluFunction 3#3 r s c0 = aluAdd r s c0 := rfl

/-- The codes other than 1, 2 and 3 are logic or constant functions (41_alu.md R207). -/
theorem aluFunction_eq_aluLogic {i : BitVec 3} (r s : Word) (c0 : Bool) (h : i = 0 ∨ i = 4 ∨ i = 5 ∨ i = 6 ∨ i = 7) :
    ∃ f, aluFunction i r s c0 = aluLogic f := by
  rcases h with rfl | rfl | rfl | rfl | rfl
  · exact ⟨0, rfl⟩
  · exact ⟨r ^^^ s, rfl⟩
  · exact ⟨r ||| s, rfl⟩
  · exact ⟨r &&& s, rfl⟩
  · exact ⟨0xFFFF, rfl⟩

/-- The complement is the signed negation less one. -/
theorem toInt_not_eq_neg_sub_one (x : Word) : (~~~x).toInt = -x.toInt - 1 := by
  have hx := x.isLt
  rw [BitVec.toInt_eq_toNat_cond, BitVec.toInt_eq_toNat_cond, BitVec.toNat_not]
  split <;> split <;> omega

/-- `X + NOT(Y) + 1` overflows exactly when the signed difference is out of range. -/
theorem aluAdd_not_true_ovf (x y : Word) : (aluAdd x (~~~y) true).ovf = outsideSigned (x.toInt - y.toInt) := by
  rw [aluAdd_ovf, toInt_not_eq_neg_sub_one, Bool.toNat_true]
  congr 1
  omega

theorem aluAdd_comm (x y : Word) (c : Bool) : aluAdd x y c = aluAdd y x c := by
  simp only [aluAdd, Nat.add_comm x.toNat, Nat.add_comm (x.toNat % 2 ^ 15)]

/-! ## The statements -/

/-- Settles O12: each additive code is the adder, whose result and carry out are the exact sum. -/
theorem additiveFunctionsCarryOut : Obligations.AdditiveFunctionsCarryOut := by
  intro r s c0
  exact ⟨aluAdd_sum17 (~~~r) s c0, aluAdd_sum17 r (~~~s) c0, aluAdd_sum17 r s c0⟩

/-- Settles O13: the adder's overflow in both forms, with the complement of an addend as its negation less one. -/
theorem overflowIsSignedRange : Obligations.OverflowIsSignedRange := by
  refine ⟨fun x y c0 => ?_, fun x y c0 => ?_, fun r s => ?_⟩
  · exact ⟨aluAdd_ovf_eq_carries x y c0, aluAdd_ovf x y c0⟩
  · exact ⟨rfl, rfl⟩
  · simp only [BitVec.ofNat_eq_ofNat, aluFunction_two, aluFunction_one, aluAdd_comm (~~~r) s]
    exact ⟨aluAdd_not_true_ovf r s, aluAdd_not_true_ovf s r⟩

/-- Settles O14: such a code gives a logic value, which has neither. -/
theorem logicFunctionsGiveNoCarry : Obligations.LogicFunctionsGiveNoCarry := by
  intro i r s c0 h
  obtain ⟨f, hf⟩ := aluFunction_eq_aluLogic r s c0 h
  rw [hf]
  exact ⟨rfl, rfl⟩

end Sys2Proof.Machine
end

section
/-! PROOFS. The hazard unit (42_hazard_unit.md R232 to R237): the flag stall by opcode, what a used port does about a
producer in EX, what one port's answer makes of the unit's, and the statements about unused ports and producers in EX. -/

namespace Sys2Proof.Machine

/-! ## The flag stall (42_hazard_unit.md R237) -/

/-- Every format puts the opcode into the top five bits (30_encoding.md R103, R106). -/
@[simp] theorem opcodeOf_encode : ∀ i : Instr, opcodeOf (encode i) = i.opcode
  | .nop .. | .hlt .. | .rsvd19 .. | .rsvd23 .. => opcodeOf_formatZ _ _
  | .load .. | .not .. | .cmpi .. | .addi .. | .subi .. | .andi .. | .ori .. | .xori .. => opcodeOf_formatRRI _ _ _ _
  | .store .. => opcodeOf_formatST _ _ _ _
  | .li .. | .lui .. => opcodeOf_formatRI8 _ _ _
  | .cmp .. | .add .. | .sub .. | .and .. | .or .. | .xor .. | .jr .. | .jalr .. | .adc .. | .sbc .. =>
    opcodeOf_formatRRR _ _ _ _ _
  | .jmp .. | .beq .. | .bne .. | .blt .. | .bgt .. | .bltu .. | .bgtu .. => opcodeOf_formatJ10 _ _ _

theorem flagStall_encode (i : Instr) (exCtl : Ctl) :
    flagStall (encode i) exCtl = (decide (24 ≤ i.opcode.toNat) && exCtl.fi) := by
  rw [flagStall, readsFlags, opcodeOf_encode]

theorem flagStall_encode_of_lt {i : Instr} (exCtl : Ctl) (h : i.opcode.toNat < 24) :
    flagStall (encode i) exCtl = false := by
  rw [flagStall_encode, decide_eq_false (Nat.not_le_of_lt h), Bool.false_and]

/-! ## One port (42_hazard_unit.md R233, R234, R236) -/

section Port
variable {unused : Bool} {exCtl : Ctl} {exSel r : RegIdx} (memCtl : Ctl) (memSel : RegIdx)

/-- An ALU result in EX is forwarded, whatever is in MEM. -/
theorem portSelect_of_alu_in_ex (hused : unused = false) (hwrites : writesReg exCtl exSel r = true)
    (halu : exCtl.writeBackSrc = false) :
    portSelect unused r exCtl exSel memCtl memSel = (.fromEx, false) := by
  simp [portSelect, hused, hwrites, halu]

/-- A store operand in EX stalls, whatever is in MEM. -/
theorem portSelect_of_storeOp_in_ex (hused : unused = false) (hwrites : writesReg exCtl exSel r = true)
    (hstore : exCtl.writeBackSrc = true) :
    portSelect unused r exCtl exSel memCtl memSel = (.none, true) := by
  simp [portSelect, hused, hwrites, hstore]

end Port

/-! ## The unit's answer from one port's (42_hazard_unit.md R240) -/

section Answer
variable {s : State} {ins : Word} {w : Ctl} {sel : ForwardSel} {stalls : Bool}

/-- Port A's selection is the unit's, and its stall enters the unit's beside port B's and the flag stall. -/
theorem hazardOf_of_portA
    (hport : portSelect w.leftUnused (fieldA ins) s.idex.ctl s.idex.selC s.exmem.ctl s.exmem.selC = (sel, stalls)) :
    (s.hazardOf ins w).selA = sel ∧ (s.hazardOf ins w).stall
      = (stalls || ((portSelect w.rightUnused (fieldB ins) s.idex.ctl s.idex.selC s.exmem.ctl s.exmem.selC).2
          || flagStall ins s.idex.ctl)) := by
  refine ⟨congrArg Prod.fst hport, ?_⟩
  rw [hazardOf_stall, hazardStall, hport, Bool.or_assoc]

/-- Port B's selection is the unit's, and its stall enters the unit's beside port A's and the flag stall. -/
theorem hazardOf_of_portB
    (hport : portSelect w.rightUnused (fieldB ins) s.idex.ctl s.idex.selC s.exmem.ctl s.exmem.selC = (sel, stalls)) :
    (s.hazardOf ins w).selB = sel ∧ (s.hazardOf ins w).stall
      = (stalls || ((portSelect w.leftUnused (fieldA ins) s.idex.ctl s.idex.selC s.exmem.ctl s.exmem.selC).2
          || flagStall ins s.idex.ctl)) := by
  refine ⟨congrArg Prod.fst hport, ?_⟩
  rw [hazardOf_stall, hazardStall, hport, Bool.or_assoc, Bool.or_left_comm]

end Answer

/-! ## The statements -/

/-- Settles O19: the match in EX fixes the port's answer before MEM is asked, and that answer is the unit's. -/
theorem producerInExForwardsOrStalls : Obligations.ProducerInExForwardsOrStalls := by
  intro s i
  refine ⟨fun used hwrites => ⟨fun halu => ?_, fun hstore => ?_⟩,
    fun used hwrites => ⟨fun halu => ?_, fun hstore => ?_⟩⟩
  · exact hazardOf_of_portA (portSelect_of_alu_in_ex _ _ used hwrites halu)
  · exact (hazardOf_of_portA (portSelect_of_storeOp_in_ex _ _ used hwrites hstore)).symm
  · exact hazardOf_of_portB (portSelect_of_alu_in_ex _ _ used hwrites halu)
  · exact (hazardOf_of_portB (portSelect_of_storeOp_in_ex _ _ used hwrites hstore)).symm

/-- Settles O18: an unused port answers no selection and no stall, and below opcode 24 there is no flag stall either. -/
theorem unusedPortNeverStallsNorForwards : Obligations.UnusedPortNeverStallsNorForwards := by
  intro s i
  refine ⟨fun unusedA => ?_, fun unusedB => ?_, fun unusedA unusedB below => ?_⟩
  · exact hazardOf_of_portA (unusedA ▸ portSelect_unused ..)
  · exact hazardOf_of_portB (unusedB ▸ portSelect_unused ..)
  · rw [State.holds, hazardStall, unusedA, unusedB, portSelect_unused, portSelect_unused, flagStall_encode_of_lt _ below]
    rfl

end Sys2Proof.Machine
end

section
/-! PROOFS. The running step (43_pipeline.md R264 to R273): what every running step latches whatever its latch case, what the
EX phase makes of the flags and the ALU latches, and which latch case a step takes. -/

namespace Sys2Proof.Machine

/-! ## The EX phase (43_pipeline.md R264, R265; 41_alu.md R213) -/

/-- The flags of an instruction with FI, its Z being that its result is 0. -/
theorem State.exFlags_of_fi {s : State} (h : s.idex.ctl.fi = true) :
    s.exFlags = { n := s.exY.getLsbD 15, c := s.exAlu.c16, z := decide (s.exY = 0), v := s.exAlu.ovf } :=
  if_pos h

theorem State.exFlags_of_no_fi {s : State} (h : s.idex.ctl.fi = false) : s.exFlags = s.flags :=
  if_neg (Bool.eq_false_iff.mp h)

/-- All latch controls are asserted, so the latches take this step's operands and result. -/
theorem State.exAlu_latches (s : State) :
    s.exAlu.latches = { aluA := s.idex.left, aluB := s.idex.right, aluF := s.exY } := rfl

/-! ## The running step (43_pipeline.md R270 to R273) -/

section Latch
variable {s : State} {ins : Word} {w : Ctl}

/-- A jump in EX flushes, whatever the hazard unit says. -/
theorem advance_of_jump (jump : s.idex.ctl.j = true) : s.advance ins w = s.latchFlush :=
  if_pos jump

theorem advance_of_stall (noJump : s.idex.ctl.j = false) (stall : (s.hazardOf ins w).stall = true) :
    s.advance ins w = s.latchStall :=
  (if_neg (Bool.eq_false_iff.mp noJump)).trans (if_pos stall)

theorem advance_of_no_stall (noJump : s.idex.ctl.j = false) (noStall : (s.hazardOf ins w).stall = false) :
    s.advance ins w = s.latchNormal (s.idContent ins w) :=
  (if_neg (Bool.eq_false_iff.mp noJump)).trans (if_neg (Bool.eq_false_iff.mp noStall))

/-- The latch case decides PC, IF/ID and ID/EX alone. -/
theorem advance_eq_retire (s : State) (ins : Word) (w : Ctl) :
    s.advance ins w = { s.retire with
      pc := (s.advance ins w).pc, ifid := (s.advance ins w).ifid, idex := (s.advance ins w).idex } := by
  obtain ⟨-, flushed⟩ | ⟨-, -, stalled⟩ | ⟨-, -, entered⟩ := advance_cases s ins w
  · rw [flushed]; rfl
  · rw [stalled]; rfl
  · rw [entered]; rfl

end Latch

/-- An instruction that answers a next state advances the machine with its own word and control word. -/
theorem exec_next_eq_advance {i : Instr} {s t : State} (h : exec i s = .next t) :
    t = s.advance (encode i) (tableWord i s.flags) := by
  rw [exec_eq] at h
  exact ((runningStep_next_iff ..).mp h).2

/-! ## The statements -/

/-- Settles O30: the step latches what EX gives in every latch case, and the flags EX gives turn on FI. -/
theorem exPhaseWritesTheFlagsOnlyWithFI : Obligations.ExPhaseWritesTheFlagsOnlyWithFI := by
  intro i s t h
  rw [exec_next_eq_advance h, advance_eq_retire]
  exact ⟨s.retire_exmem, State.exFlags_of_fi, State.exFlags_of_no_fi, s.exAlu_latches⟩

/-- Settles O31: the latch case leaves the reset counter and the instruction memory alone; J, then the hold, decide which
case it is. -/
theorem latchCasesFlushStallNormal : Obligations.LatchCasesFlushStallNormal := by
  intro i s t h
  obtain rfl := exec_next_eq_advance h
  refine ⟨?_, ?_, fun jump => ?_, fun noJump held => ?_, fun noJump notHeld => ?_⟩
  · rw [advance_eq_retire]
    exact s.retire_rc
  · rw [advance_eq_retire]
    exact s.retire_imem
  · rw [advance_of_jump jump]
    exact ⟨rfl, rfl, rfl⟩
  · rw [advance_of_stall noJump held]
    exact ⟨rfl, rfl, rfl⟩
  · rw [advance_of_no_stall noJump notHeld]
    exact ⟨rfl, rfl, rfl⟩

end Sys2Proof.Machine
end

section
/-! PROOFS. Reset (70_reset_and_hazards.md R430, R433, R434): the state a hard reset gives, and what each kind sets and
keeps. -/

namespace Sys2Proof.Machine

/-- A hard reset is the power-on state on the host's side of the state it started from (70_reset_and_hazards.md R434). -/
theorem State.hostReset_hard (s : State) :
    s.hostReset .hard = { State.reset with imem := s.imem, data := s.data } := rfl

/-- The snapshot holds nothing of the host's (60_exceptions.md R409). -/
theorem State.snapshot_with_host (s : State) (m : Memory) (d : DataSpace) :
    { s with imem := m, data := d }.snapshot = s.snapshot := rfl

/-- Settles O51: the fields by the laws of `hostReset`; the power-on snapshot because a hard reset differs from power-on
in the host's side alone, which no snapshot sees. -/
theorem hostResetSetsTheResetState : Obligations.HostResetSetsTheResetState := by
  intro s kind
  have hardRegs (r : RegIdx) : (s.hostReset .hard).regs.read r = 0 := by
    rw [State.hostReset_hard_regs, Regs.read_zero]
  have powerOn : (s.hostReset .hard).snapshot = State.reset.snapshot := by
    rw [State.hostReset_hard, State.snapshot_with_host]
  exact ⟨s.hostReset_pc kind, s.hostReset_ifid kind, s.hostReset_idex kind, s.hostReset_exmem kind,
    s.hostReset_memwb kind, s.hostReset_flags kind, s.hostReset_latches kind, s.hostReset_rc kind,
    s.hostReset_imem kind, s.hostReset_data kind, s.hostReset_soft_regs, hardRegs, powerOn⟩

end Sys2Proof.Machine
end

section
/-! PROOFS. Instruction words (30_encoding.md R101 to R106): decoding and encoding are inverse to each other, format by
format, and the statements about words. -/

namespace Sys2Proof

/-! ## A word with a given opcode, put together again -/

section OfOpcode
variable {w : Word} {op : Opcode}

theorem formatZ_of_opcode (h : opcodeOf w = op) : formatZ op (fieldLow11 w) = w :=
  h ▸ formatZ_fields w

theorem formatRRR_of_opcode (h : opcodeOf w = op) :
    formatRRR op (fieldC w) (fieldA w) (fieldB w) (fieldLow2 w) = w :=
  h ▸ formatRRR_fields w

theorem formatRRI_of_opcode (h : opcodeOf w = op) : formatRRI op (fieldC w) (fieldA w) (fieldImm5 w) = w :=
  h ▸ formatRRI_fields w

theorem formatRI8_of_opcode (h : opcodeOf w = op) : formatRI8 op (fieldC w) (fieldImm8 w) = w :=
  h ▸ formatRI8_fields w

theorem formatJ10_of_opcode (h : opcodeOf w = op) : formatJ10 op (fieldBit10 w) (fieldOff10 w) = w :=
  h ▸ formatJ10_fields w

theorem formatST_of_opcode (h : opcodeOf w = op) : formatST op (fieldB w) (fieldA w) (fieldSimm w) = w :=
  h ▸ formatST_fields w

end OfOpcode

/-! ## Both ways round -/

@[simp] theorem decode_encode : ∀ i : Instr, decode (encode i) = i
  | .nop .. | .hlt .. | .rsvd19 .. | .rsvd23 .. => by simp [encode, decode]
  | .load .. | .not .. | .cmpi .. | .addi .. | .subi .. | .andi .. | .ori .. | .xori .. => by simp [encode, decode]
  | .store .. => by simp [encode, decode]
  | .li .. | .lui .. => by simp [encode, decode]
  | .cmp .. | .add .. | .sub .. | .and .. | .or .. | .xor .. | .jr .. | .jalr .. | .adc .. | .sbc .. => by
    simp [encode, decode]
  | .jmp .. | .beq .. | .bne .. | .blt .. | .bgt .. | .bltu .. | .bgtu .. => by simp [encode, decode]

/-- The opcode picks the format, and the word is put together from that format's fields. -/
@[simp] theorem encode_decode (ins : Word) : encode (decode ins) = ins := by
  have hlt : (opcodeOf ins).toNat < 32 := (opcodeOf ins).isLt
  have ofNat {n : Nat} (h : (opcodeOf ins).toNat = n) : opcodeOf ins = BitVec.ofNat 5 n := by
    rw [← h, BitVec.ofNat_toNat, BitVec.setWidth_eq]
  match hop : (opcodeOf ins).toNat, hlt with
  | 0, _ | 1, _ | 19, _ | 23, _ => rw [decode, hop]; exact formatZ_of_opcode (ofNat hop)
  | 2, _ | 12, _ | 13, _ | 14, _ | 15, _ | 16, _ | 17, _ | 18, _ =>
    rw [decode, hop]; exact formatRRI_of_opcode (ofNat hop)
  | 3, _ => rw [decode, hop]; exact formatST_of_opcode (ofNat hop)
  | 4, _ | 5, _ => rw [decode, hop]; exact formatRI8_of_opcode (ofNat hop)
  | 6, _ | 7, _ | 8, _ | 9, _ | 10, _ | 11, _ | 21, _ | 22, _ | 30, _ | 31, _ =>
    rw [decode, hop]; exact formatRRR_of_opcode (ofNat hop)
  | 20, _ | 24, _ | 25, _ | 26, _ | 27, _ | 28, _ | 29, _ =>
    rw [decode, hop]; exact formatJ10_of_opcode (ofNat hop)
  | n + 32, h => omega

theorem opcode_decode (ins : Word) : (decode ins).opcode = opcodeOf ins := by
  rw [← Machine.opcodeOf_encode, encode_decode]

/-! ## The statements -/

/-- Settles O1, format by format through the laws of the fields. -/
theorem decodeUndoesEncode : Obligations.DecodeUndoesEncode := decode_encode

/-- Settles O2, opcode by opcode through the format the opcode picks. -/
theorem encodeUndoesDecode : Obligations.EncodeUndoesDecode := encode_decode

/-- Settles O3, word by word. -/
theorem specExampleWordsDecode : Obligations.SpecExampleWordsDecode := by
  unfold Obligations.SpecExampleWordsDecode
  decide

end Sys2Proof
end

section
/-! PROOFS. The rows of the decoder's table (40_decoder.md R142, R167 to R171): the signals of a packed row, what holds of
every row, and the statements about the control words and the interface of the decoders. -/

namespace Sys2Proof.Machine

/-! ## The signals of a row (40_decoder.md R142) -/

/-- The signals of a row bit by bit, the least significant first. -/
def Signals.bits (g : Signals) : List Bool :=
  [g.hlt, g.selStoreOp.getLsbD 0, g.selStoreOp.getLsbD 1, g.selRightOp.getLsbD 0, g.selRightOp.getLsbD 1, g.fi, g.c0,
    g.i.getLsbD 0, g.i.getLsbD 1, g.i.getLsbD 2, g.rs.getLsbD 0, g.rs.getLsbD 1, g.j, g.jabs, g.memLoad, g.memStore,
    g.assertStoreOp, g.writeBackSrc, g.wrl, g.wrh, g.wben, g.leftUnused, g.rightUnused]

theorem Signals.getLsbD_pack (g : Signals) (b : Nat) : g.pack.getLsbD b = g.bits.getD b false := by
  rcases Nat.lt_or_ge b 23 with hb | hb
  · have unfolded : g.pack.getLsbD b = (BitVec.ofBool g.rightUnused ++ BitVec.ofBool g.leftUnused
        ++ BitVec.ofBool g.wben ++ BitVec.ofBool g.wrh ++ BitVec.ofBool g.wrl ++ BitVec.ofBool g.writeBackSrc
        ++ BitVec.ofBool g.assertStoreOp ++ BitVec.ofBool g.memStore ++ BitVec.ofBool g.memLoad
        ++ BitVec.ofBool g.jabs ++ BitVec.ofBool g.j ++ g.rs ++ g.i ++ BitVec.ofBool g.c0 ++ BitVec.ofBool g.fi
        ++ g.selRightOp ++ g.selStoreOp ++ BitVec.ofBool g.hlt).getLsbD b := rfl
    rw [unfolded]
    simp only [BitVec.getLsbD_append]
    interval_cases b <;> simp [Signals.bits]
  · rw [BitVec.getLsbD_of_ge _ _ hb, List.getD_eq_default _ _ hb]

section Pack
variable (g : Signals)

@[simp] theorem Signals.pack_hlt : g.pack.hlt = g.hlt := g.getLsbD_pack 0
@[simp] theorem Signals.pack_fi : g.pack.fi = g.fi := g.getLsbD_pack 5
@[simp] theorem Signals.pack_c0 : g.pack.c0 = g.c0 := g.getLsbD_pack 6
@[simp] theorem Signals.pack_j : g.pack.j = g.j := g.getLsbD_pack 12
@[simp] theorem Signals.pack_jabs : g.pack.jabs = g.jabs := g.getLsbD_pack 13
@[simp] theorem Signals.pack_memLoad : g.pack.memLoad = g.memLoad := g.getLsbD_pack 14
@[simp] theorem Signals.pack_memStore : g.pack.memStore = g.memStore := g.getLsbD_pack 15
@[simp] theorem Signals.pack_assertStoreOp : g.pack.assertStoreOp = g.assertStoreOp := g.getLsbD_pack 16
@[simp] theorem Signals.pack_writeBackSrc : g.pack.writeBackSrc = g.writeBackSrc := g.getLsbD_pack 17
@[simp] theorem Signals.pack_wrl : g.pack.wrl = g.wrl := g.getLsbD_pack 18
@[simp] theorem Signals.pack_wrh : g.pack.wrh = g.wrh := g.getLsbD_pack 19
@[simp] theorem Signals.pack_wben : g.pack.wben = g.wben := g.getLsbD_pack 20
@[simp] theorem Signals.pack_leftUnused : g.pack.leftUnused = g.leftUnused := g.getLsbD_pack 21
@[simp] theorem Signals.pack_rightUnused : g.pack.rightUnused = g.rightUnused := g.getLsbD_pack 22

/-- A field of more than one bit is cut from a packed row as its bits stand in `bits`. -/
theorem Signals.extractLsb'_pack {start len : Nat} (field : BitVec len)
    (h : ∀ k < len, g.bits.getD (start + k) false = field.getLsbD k) : g.pack.extractLsb' start len = field := by
  apply BitVec.eq_of_getLsbD_eq
  intro k hk
  rw [BitVec.getLsbD_extractLsb', getLsbD_pack, h k hk, decide_eq_true hk, Bool.true_and]

@[simp] theorem Signals.pack_selStoreOp : g.pack.selStoreOp = g.selStoreOp :=
  g.extractLsb'_pack _ fun | 0, _ | 1, _ => rfl
@[simp] theorem Signals.pack_selRightOp : g.pack.selRightOp = g.selRightOp :=
  g.extractLsb'_pack _ fun | 0, _ | 1, _ => rfl
@[simp] theorem Signals.pack_i : g.pack.i = g.i := g.extractLsb'_pack _ fun | 0, _ | 1, _ | 2, _ => rfl
@[simp] theorem Signals.pack_rs : g.pack.rs = g.rs := g.extractLsb'_pack _ fun | 0, _ | 1, _ => rfl

end Pack

/-! ## What holds of every row (40_decoder.md R167 to R169) -/

/-- What the phases rely on in a control word: no signal of it is of use without the operand or the lane it needs. -/
structure Consistent (w : Ctl) : Prop where
  /-- An instruction that writes its ALU result writes both bytes. -/
  alu_writer_full : w.wben = true → w.writeBackSrc = false → w.wrl = true ∧ w.wrh = true
  /-- Only an idle ALU is routed the latched F. -/
  latch_idle : w.rs = 0 → w.i = 0
  /-- Without port A the ALU is idle. -/
  left_idle : w.leftUnused = true → w.i = 0
  /-- Without port B the ALU is idle, or is routed 0 in its place, or its right operand is the immediate. -/
  right_idle : w.rightUnused = true → w.i = 0 ∨ w.rs = 1 ∨ w.selRightOp = 1
  /-- A store operand that MEM uses comes from port B only where that port is used. -/
  storeOp_used : w.assertStoreOp = true ∨ w.memStore = true → w.selStoreOp = 0 → w.rightUnused = false

theorem consistent_signalsOf (f : Flags) (op : Nat) : Consistent (signalsOf f op).pack := by
  unfold signalsOf
  split <;> constructor <;> simp [idleRow, registerRow, immediateRow]

/-- The rows are written consistently, and every control word is a packed row. -/
theorem consistent_of_inDecoderTable {w : Ctl} (h : inDecoderTable w) : Consistent w := by
  obtain ⟨f, op, rfl⟩ := h
  exact consistent_signalsOf f op.toNat

theorem signalsOf_memLoad {f : Flags} {op : Nat} (h : (signalsOf f op).memLoad = true) : op = 2 := by
  revert h
  unfold signalsOf
  split <;> simp [idleRow, registerRow, immediateRow]

theorem signalsOf_memStore {f : Flags} {op : Nat} (h : (signalsOf f op).memStore = true) : op = 3 := by
  revert h
  unfold signalsOf
  split <;> simp [idleRow, registerRow, immediateRow]

/-- The only control word with MemLoad is that of LOAD. -/
theorem eq_of_memLoad {w : Ctl} (h : inDecoderTable w) (load : w.memLoad = true) : w = 0x5E4D88#23 := by
  obtain ⟨f, op, rfl⟩ := h
  obtain rfl : op = 2 := BitVec.eq_of_toNat_eq (signalsOf_memLoad ((Signals.pack_memLoad _).symm.trans load))
  exact (controlWord_fixed 2 f (by decide)).trans (by decide)

/-- The only control word with MemStore is that of STORE. -/
theorem eq_of_memStore {w : Ctl} (h : inDecoderTable w) (store : w.memStore = true) : w = 0x018D90#23 := by
  obtain ⟨f, op, rfl⟩ := h
  obtain rfl : op = 3 := BitVec.eq_of_toNat_eq (signalsOf_memStore ((Signals.pack_memStore _).symm.trans store))
  exact (controlWord_fixed 3 f (by decide)).trans (by decide)

theorem inDecoderTable_controlWord (f : Flags) (op : Opcode) : inDecoderTable (controlWord f op) := ⟨f, op, rfl⟩

theorem inDecoderTable_nopWord : inDecoderTable nopWord := ⟨Flags.clear, 0, by decide⟩

/-! ## The interface form of the decoders (40_decoder.md R140) -/

/-- Clearing the index bits above bit 8 keeps the low nine. -/
theorem extractLsb'_and_mask (x : BitVec 32) : (x &&& 0x1FF#32).extractLsb' 0 9 = x.extractLsb' 0 9 := by
  rw [BitVec.extractLsb'_and, show (0x1FF#32).extractLsb' 0 9 = BitVec.allOnes 9 by decide, BitVec.and_allOnes]

/-- `flags << 5 | opcode` holds the flags above the opcode. -/
theorem extractLsb'_shift_or (nibble : BitVec 4) (op : Opcode) :
    (nibble.setWidth 32 <<< 5 ||| op.setWidth 32).extractLsb' 0 9 = nibble ++ op := by
  apply BitVec.eq_of_getLsbD_eq
  intro k hk
  rw [BitVec.getLsbD_append]
  by_cases low : k < 5
  · simp [hk, low, show k < 32 by omega]
  · simp [hk, low, show k < 32 by omega, BitVec.getLsbD_of_ge op k (by omega)]

theorem queryU32_and_mask (implementation : BitVec 9 → Ctl) (x : BitVec 32) :
    queryU32 implementation x = queryU32 implementation (x &&& 0x1FF#32) :=
  queryU32_congr _ (extractLsb'_and_mask x).symm

theorem queryU32_lookup (f : Flags) (op : Opcode) :
    queryU32 lookup (f.nibble.setWidth 32 <<< 5 ||| op.setWidth 32) = (controlWord f op).setWidth 32 := by
  rw [queryU32, extractLsb'_shift_or]
  exact congrArg (BitVec.setWidth 32) (lookup_decoderIndex f op)

theorem queryU32_pld : queryU32 pld = queryU32 lookup := congrArg queryU32 (funext pld_eq_lookup)

/-! ## The statements -/

/-- Settles O6: below 24 the flags do not matter, and at 30 and 31 only C does. -/
theorem controlWordsAreTheTables : Obligations.ControlWordsAreTheTables := by
  refine ⟨lookup_decoderIndex, fun f => ?_⟩
  have fixed : ∀ op ∈ [0, 1, 2, 3, 4, 5, 6, 7, 8, 9, 10, 11, 12, 13, 14, 15, 16, 17, 18, 19, 20, 21, 22, 23],
      controlWord f op = controlWord Flags.clear op :=
    fun op h => controlWord_fixed op f (by revert op; decide)
  refine (List.map_append (l₁ := [0, 1, 2, 3, 4, 5, 6, 7, 8, 9, 10, 11, 12, 13, 14, 15, 16, 17, 18, 19, 20, 21, 22, 23])
    (l₂ := [30, 31])).trans ?_
  have carry : [30, 31].map (controlWord f)
      = [(signalsOf { n := false, c := f.c, z := false, v := false } 30).pack,
          (signalsOf { n := false, c := f.c, z := false, v := false } 31).pack] :=
    congrArg₂ (fun v w => [v, w]) (controlWord_carry 30 f (.inl rfl)) (controlWord_carry 31 f (.inr rfl))
  rw [List.map_congr_left fixed, carry]
  generalize f.c = c
  revert c
  decide

/-- Settles O11: both forms see the low nine bits alone, agree there, and the index of flags and opcode has the decoder's
index in them. -/
theorem decoderIgnoresHighIndexBits : Obligations.DecoderIgnoresHighIndexBits := by
  have agree (index : BitVec 32) : pldU32 index = decodeU32 index := congrFun queryU32_pld index
  refine ⟨fun index => ?_, fun f op => ?_⟩
  · exact ⟨queryU32_and_mask lookup index, queryU32_lt lookup index, queryU32_and_mask pld index,
      queryU32_lt pld index, agree index⟩
  · exact ⟨queryU32_lookup f op, (agree _).trans (queryU32_lookup f op)⟩

end Sys2Proof.Machine
end

section
/-! PROOFS. The ALU in the pipeline (41_alu.md R203 to R214) and the flags it gives (44_alu_instructions.md R317): each
function as word arithmetic, its flags as the rows of R317, why no instruction sees the latches, and the order that the
branch predicates read from a comparison. -/

namespace Sys2Proof.Machine

/-! ## The functions as word arithmetic (41_alu.md R204, R205, R208) -/

theorem aluAdd_fc (x y : Word) (c : Bool) : (aluAdd x y c).fc = x + y + BitVec.ofNat 16 c.toNat := by
  apply BitVec.eq_of_toNat_eq
  rw [aluAdd_fc_toNat]
  simp [BitVec.toNat_add]

theorem aluAdd_false_fc (x y : Word) : (aluAdd x y false).fc = x + y :=
  (aluAdd_fc x y false).trans (BitVec.add_zero _)

/-- `X + NOT(Y) + c` is the difference, less one without the carry in. -/
theorem aluAdd_not_fc (x y : Word) (c : Bool) :
    (aluAdd x (~~~y) c).fc = x - y - 1 + BitVec.ofNat 16 c.toNat := by
  have complement : x + ~~~y = x - y - 1 := by bv_omega
  rw [aluAdd_fc, complement]

theorem aluAdd_not_true_fc (x y : Word) : (aluAdd x (~~~y) true).fc = x - y := by
  rw [aluAdd_not_fc]
  exact BitVec.sub_add_cancel _ 1

theorem aluAdd_not_c16 (x y : Word) (c : Bool) :
    (aluAdd x (~~~y) c).c16 = decide (2 ^ 16 ≤ x.toNat + (0xFFFF - y.toNat) + c.toNat) := by
  rw [aluAdd_c16, BitVec.toNat_not]

/-- Adding 0 without a carry is a logic function. -/
theorem aluAdd_zero (x : Word) : aluAdd x 0 false = aluLogic x := by
  have hx := x.isLt
  have fc : (aluAdd x 0 false).fc = x := (aluAdd_false_fc x 0).trans (BitVec.add_zero x)
  have c16 : (aluAdd x 0 false).c16 = false := by
    rw [aluAdd_c16, decide_eq_false]
    simpa using hx
  have ovf : (aluAdd x 0 false).ovf = false := by
    rw [aluAdd_ovf_eq_carries, c16, decide_eq_false]
    · rfl
    · simp
      omega
  generalize aluAdd x 0 false = v at fc c16 ovf ⊢
  obtain ⟨f, c, o⟩ := v
  obtain rfl : f = x := fc
  obtain rfl : c = false := c16
  obtain rfl : o = false := ovf
  rfl

/-! ## The flags of a result (44_alu_instructions.md R317) -/

/-- The flags EX writes from what the function block gives (43_pipeline.md R265). -/
def AluValue.flags (v : AluValue) : Flags := flagsOfResult v.fc v.c16 (v.fc == 0) v.ovf

theorem flags_aluAdd (x y : Word) (c : Bool) : (aluAdd x y c).flags = flagsOfSum x y c := by
  rw [AluValue.flags, aluAdd_fc, aluAdd_c16, aluAdd_ovf]
  rfl

theorem flags_aluAdd_not (x y : Word) (c : Bool) : (aluAdd x (~~~y) c).flags = flagsOfBorrow x y c := by
  have signed : x.toInt + (-y.toInt - 1) + c.toNat = x.toInt - y.toInt - 1 + c.toNat := by omega
  rw [AluValue.flags, aluAdd_not_fc, aluAdd_not_c16, aluAdd_ovf, toInt_not_eq_neg_sub_one, signed]
  rfl

/-- With the carry set the borrow form is the difference: no borrow means that B is not above A (41_alu.md R208). -/
theorem flagsOfBorrow_true (x y : Word) : flagsOfBorrow x y true = flagsOfDifference x y := by
  have word : x - y - 1 + BitVec.ofNat 16 true.toNat = x - y := BitVec.sub_add_cancel _ 1
  have carry : 2 ^ 16 ≤ x.toNat + (0xFFFF - y.toNat) + true.toNat ↔ y.toNat ≤ x.toNat := by
    have hy := y.isLt
    rw [Bool.toNat_true]
    omega
  have signed : x.toInt - y.toInt - 1 + (true.toNat : Nat) = x.toInt - y.toInt := by
    rw [Bool.toNat_true]
    omega
  rw [flagsOfBorrow, word, signed, decide_eq_decide.mpr carry]
  rfl

theorem flags_aluAdd_not_true (x y : Word) : (aluAdd x (~~~y) true).flags = flagsOfDifference x y :=
  (flags_aluAdd_not x y true).trans (flagsOfBorrow_true x y)

/-! ## The ALU of a step's EX phase (41_alu.md R203, R213, R214) -/

/-- The four codes of a two-bit selection. -/
theorem two_bit_cases (code : BitVec 2) : code = 0 ∨ code = 1 ∨ code = 2 ∨ code = 3 := by
  revert code
  decide

theorem aluRoute_eq (rs : BitVec 2) (ae be aluF : Word) :
    aluRoute rs ae be aluF = (if rs = 2 then 0 else ae, if rs = 0 then aluF else if rs = 1 then 0 else be) := by
  rcases two_bit_cases rs with rfl | rfl | rfl | rfl <;> rfl

/-- What the function block gives for an instruction in EX, with `aluF` latched. -/
def IdEx.aluValue (k : IdEx) (aluF : Word) : AluValue :=
  aluFunction k.ctl.i (aluRoute k.ctl.rs k.left k.right aluF).1 (aluRoute k.ctl.rs k.left k.right aluF).2 k.ctl.c0

/-- EX writes the flags of its result or none. -/
theorem State.exFlags_eq (s : State) : s.exFlags = if s.idex.ctl.fi then s.exValue.flags else s.flags := rfl

theorem IdEx.aluValue_of_idle {k : IdEx} (h : k.ctl.i = 0) (aluF : Word) : k.aluValue aluF = aluLogic 0 := by
  rw [IdEx.aluValue, h]
  rfl

/-- The latched F is routed to an idle ALU alone. -/
theorem IdEx.aluValue_latch {k : IdEx} (h : Consistent k.ctl) (l m : Word) : k.aluValue l = k.aluValue m := by
  by_cases routed : k.ctl.rs = 0
  · rw [aluValue_of_idle (h.latch_idle routed), aluValue_of_idle (h.latch_idle routed)]
  · simp only [aluValue, aluRoute_eq, if_neg routed]

/-! ## The order of two words from the flags of their difference (46_control_instructions.md R375 to R380) -/

section Compare
variable (a b : Word)

theorem flagsOfDifference_z : (flagsOfDifference a b).z = decide (a = b) :=
  decide_eq_decide.mpr sub_eq_zero

theorem flagsOfDifference_c : (flagsOfDifference a b).c = decide (b.toNat ≤ a.toNat) := rfl

/-- Bit 15 of the difference is its sign, unless the difference overflows, when it is the other sign. -/
theorem flagsOfDifference_n_ne_v :
    ((flagsOfDifference a b).n != (flagsOfDifference a b).v) = decide (a.toInt < b.toInt) := by
  have sign : (flagsOfDifference a b).n = decide (2 ^ 15 ≤ (a - b).toNat) := testBit_eq_decide_two_pow_le (a - b).isLt
  have ha := a.isLt
  have hb := b.isLt
  rw [sign, BitVec.toNat_sub, flagsOfDifference, toInt_eq_low_sub_sign a, toInt_eq_low_sub_sign b, Bool.eq_iff_iff]
  simp only [outsideSigned, bne_iff_ne, ne_eq, decide_eq_decide, ← Bool.decide_or, decide_eq_true_eq]
  omega

end Compare

/-! ## The statements -/

/-- Settles O15: the difference and its carry out, with the carry in set and clear. -/
theorem subtractionCarryMeansNoBorrow : Obligations.SubtractionCarryMeansNoBorrow := by
  intro r s
  have hs := s.isLt
  refine ⟨aluAdd_not_true_fc r s, ?_, (aluAdd_not_fc r s false).trans (BitVec.add_zero _), ?_⟩
  · refine (aluAdd_not_c16 r s true).trans (decide_eq_decide.mpr ?_)
    rw [Bool.toNat_true]
    omega
  · refine (aluAdd_not_c16 r s false).trans (decide_eq_decide.mpr ?_)
    rw [Bool.toNat_false]
    omega

/-- Settles O16: the routing written as the choice of each operand, in the law of the whole ALU. -/
theorem aluOutputAndLatches : Obligations.AluOutputAndLatches := by
  refine ⟨fun a b c0 i rs lines l => ?_, fun r s c0 => ⟨rfl, rfl, rfl, rfl, rfl⟩⟩
  rw [alu_eq, aluRoute_eq]
  rfl

/-- Settles O17: the result is a value and what is latched by definition; the latched F reaches an idle ALU alone. -/
theorem noInstructionReadsTheAluLatches : Obligations.NoInstructionReadsTheAluLatches := by
  intro s l
  refine ⟨rfl, s.exAlu_latches, fun word => ?_⟩
  have value : ({ s with latches := l } : State).exValue = s.exValue :=
    IdEx.aluValue_latch (consistent_of_inDecoderTable word) l.aluF s.latches.aluF
  constructor
  · rw [State.exY_eq, State.exY_eq, value]
  · rw [State.exFlags_eq, State.exFlags_eq, value]

/-- Settles O47: Z is equality, C is no borrow, and N differs from V exactly for a signed less-than. -/
theorem branchesAfterCompareCompare : Obligations.BranchesAfterCompareCompare := by
  intro a b
  have signedInj : a = b ↔ a.toInt = b.toInt := BitVec.toInt_inj.symm
  have unsignedInj : a = b ↔ a.toNat = b.toNat := BitVec.toNat_inj.symm
  have signEq : ((flagsOfDifference a b).n == (flagsOfDifference a b).v) = !decide (a.toInt < b.toInt) := by
    rw [← flagsOfDifference_n_ne_v]
    exact (Bool.not_not _).symm
  simp only [Flags.equal, Flags.notEqual, Flags.lessSigned, Flags.greaterSigned, Flags.lowerUnsigned,
    Flags.higherUnsigned, flagsOfDifference_z, flagsOfDifference_c, flagsOfDifference_n_ne_v, signEq,
    Bool.and_eq_true, Bool.not_eq_true', decide_eq_true_eq, decide_eq_false_iff_not, true_and, ne_eq]
  refine ⟨?_, ?_, ?_⟩
  · rw [signedInj]; omega
  · omega
  · rw [unsignedInj]; omega

end Sys2Proof.Machine
end

section
/-! PROOFS. When an instruction is held (42_hazard_unit.md R235, R237, R240, R244 to R246): a producer in MEM never holds it,
and a bubble in EX never does. -/

namespace Sys2Proof.Machine

/-! ## The bubbles (10_state.md R37) -/

@[simp] theorem IdEx.bubble_ctl : IdEx.bubble.ctl = nopWord := rfl
@[simp] theorem ExMem.bubble_ctl : ExMem.bubble.ctl = nopWord := rfl
@[simp] theorem MemWb.bubble_ctl : MemWb.bubble.ctl = nopWord := rfl

/-! ## What holds an instruction -/

/-- A producer in MEM is forwarded when EX does not write the register (42_hazard_unit.md R235). -/
theorem portSelect_of_mem_writer {unused : Bool} {r exSel memSel : RegIdx} {exCtl memCtl : Ctl} (hused : unused = false)
    (hex : ¬ writesReg exCtl exSel r = true) (hmem : writesReg memCtl memSel r = true) :
    portSelect unused r exCtl exSel memCtl memSel = (.fromMem, false) := by
  simp [portSelect, hused, hex, hmem]

/-- What holds an instruction (42_hazard_unit.md R240): a used port that a store-operand producer in EX writes, or the
flags. -/
theorem State.holds_iff (s : State) (i : Instr) :
    s.holds i = true ↔
      ((tableWord i s.flags).leftUnused = false ∧ writesReg s.idex.ctl s.idex.selC (fieldA (encode i)) = true
          ∧ s.idex.ctl.writeBackSrc = true)
      ∨ ((tableWord i s.flags).rightUnused = false ∧ writesReg s.idex.ctl s.idex.selC (fieldB (encode i)) = true
          ∧ s.idex.ctl.writeBackSrc = true)
      ∨ (24 ≤ i.opcode.toNat ∧ s.idex.ctl.fi = true) := by
  rw [State.holds, hazardStall, Bool.or_eq_true, Bool.or_eq_true, portSelect_stall_iff, portSelect_stall_iff,
    flagStall_encode, Bool.and_eq_true, decide_eq_true_eq, or_assoc]

/-- An instruction in EX that writes neither a register nor the flags holds nothing. -/
theorem State.holds_of_quiet_ex {s : State} (hwben : s.idex.ctl.wben = false) (hfi : s.idex.ctl.fi = false) (i : Instr) :
    s.holds i = false := by
  have writesNone (r : RegIdx) : writesReg s.idex.ctl s.idex.selC r = false := by simp [writesReg, hwben]
  rw [Bool.eq_false_iff, ne_eq, State.holds_iff]
  simp [writesNone, hfi]

/-- A bubble in EX holds nothing. -/
theorem State.holds_of_bubble {s : State} (h : s.idex = IdEx.bubble) (i : Instr) : s.holds i = false :=
  State.holds_of_quiet_ex (by simp [h]) (by simp [h]) i

/-- An instruction that reads the flags and is not held reads them as EX leaves them. -/
theorem State.exFlags_of_not_held {s : State} {i : Instr} (hreads : 24 ≤ i.opcode.toNat) (free : s.holds i = false) :
    s.exFlags = s.flags := by
  apply State.exFlags_of_no_fi
  by_contra hfi
  rw [Bool.not_eq_false] at hfi
  rw [Bool.eq_false_iff] at free
  exact free ((s.holds_iff i).mpr (.inr (.inr ⟨hreads, hfi⟩)))

/-! ## The statements -/

/-- Settles O20: a port asks MEM only after EX, and no port stalls for MEM. -/
theorem producerInMemForwards : Obligations.ProducerInMemForwards := by
  intro s i
  refine ⟨fun used hex hmem => ?_, fun used hex hmem => ?_, rfl, s.holds_iff i⟩
  · exact (hazardOf_of_portA (portSelect_of_mem_writer used hex hmem)).1
  · exact (hazardOf_of_portB (portSelect_of_mem_writer used hex hmem)).1

/-- Settles O21: the flag stall is the third of the reasons to hold an instruction. -/
theorem flagReaderWaitsForFlagWriter : Obligations.FlagReaderWaitsForFlagWriter := by
  intro s i
  exact ⟨fun reads writes => (s.holds_iff i).mpr (.inr (.inr ⟨reads, writes⟩)), flagStall_encode i s.idex.ctl⟩

/-- Settles O22: the step that holds is the stall latch, which leaves a bubble in EX. -/
theorem stallLastsOneCycle : Obligations.StallLastsOneCycle := by
  intro i s t noJump held h
  obtain rfl : t = s.latchStall := (exec_next_eq_advance h).trans (advance_of_stall noJump held)
  exact ⟨rfl, rfl, rfl, State.holds_of_bubble rfl i, by simp⟩

end Sys2Proof.Machine
end

section
/-! PROOFS. The step and the running step (43_pipeline.md R260 to R275): what each part of the machine is after a running
step, and the statements about the phases, the status outputs, the host's calls and the invariants of every step. -/

namespace Sys2Proof.Machine

/-! ## A running step, part by part (43_pipeline.md R262 to R265) -/

section Advance
variable (s : State) (ins : Word) (w : Ctl)

@[simp] theorem State.advance_regs : (s.advance ins w).regs = s.wbRegs := by rw [advance_eq_retire]; rfl
@[simp] theorem State.advance_flags : (s.advance ins w).flags = s.exFlags := by rw [advance_eq_retire]; rfl
@[simp] theorem State.advance_rc : (s.advance ins w).rc = s.rc := by rw [advance_eq_retire]; rfl
@[simp] theorem State.advance_imem : (s.advance ins w).imem = s.imem := by rw [advance_eq_retire]; rfl
@[simp] theorem State.advance_data : (s.advance ins w).data = s.memPhase.2 := by rw [advance_eq_retire]; rfl
@[simp] theorem State.advance_exmem :
    (s.advance ins w).exmem = { ctl := s.idex.ctl, y := s.exY, storeOp := s.idex.storeOp, selC := s.idex.selC } := by
  rw [advance_eq_retire]; rfl
@[simp] theorem State.advance_memwb :
    (s.advance ins w).memwb
      = { ctl := s.exmem.ctl, y := s.exmem.y, data := s.memPhase.1, selC := s.exmem.selC } := by
  rw [advance_eq_retire]; rfl

end Advance

theorem exec_next_iff {i : Instr} {s t : State} :
    exec i s = .next t ↔ s.refusedAnswer = none ∧ t = s.advance (encode i) (tableWord i s.flags) := by
  rw [exec_eq, runningStep_next_iff]

/-- An instruction that nothing keeps from entering EX enters it. -/
theorem exec_of_issues {i : Instr} {s : State} (h : s.issues i = true) :
    exec i s = .next (s.latchNormal (s.idContent (encode i) (tableWord i s.flags))) := by
  simp only [State.issues, Bool.and_eq_true, Bool.not_eq_true', beq_iff_eq] at h
  obtain ⟨⟨noJump, free⟩, answered⟩ := h
  exact exec_next_iff.mpr ⟨answered, (advance_of_no_stall noJump free).symm⟩

/-! ## The step (43_pipeline.md R260) -/

theorem State.isResetting_iff (s : State) : s.isResetting = true ↔ 0 < s.rc := decide_eq_true_iff

theorem State.isHalted_iff (s : State) : s.isHalted = true ↔ s.rc = 0 ∧ s.exmem.ctl.hlt = true := by
  rw [State.isHalted, Bool.and_eq_true, beq_iff_eq]

theorem State.not_halted_of_hlt {s : State} (h : s.exmem.ctl.hlt = false) : s.isHalted = false := by
  rw [State.isHalted, h, Bool.and_false]

theorem step_of_resetting {s : State} (h : 0 < s.rc) : step s = .next s.resettingStep :=
  if_pos (s.isResetting_iff.mpr h)

theorem step_of_halted {s : State} (h : s.isHalted = true) : step s = .next s := by
  obtain ⟨resetting, -⟩ | ⟨-, -, stays⟩ | ⟨-, running, -⟩ := step_cases s
  · exact absurd (s.isHalted_iff.mp h).1 (Nat.ne_of_gt resetting)
  · exact stays
  · exact absurd h (Bool.eq_false_iff.mp running)

theorem step_of_running {s : State} (hrc : s.rc = 0) (running : s.isHalted = false) :
    step s = exec s.instrInId s := by
  obtain ⟨resetting, -⟩ | ⟨-, halted, -⟩ | ⟨-, -, runs⟩ := step_cases s
  · exact absurd hrc (Nat.ne_of_gt resetting)
  · exact absurd halted (Bool.eq_false_iff.mp running)
  · exact runs

/-- The control word decoded in ID this step (43_pipeline.md R267). -/
def State.idCtl (s : State) : Ctl := controlWord s.flags (opcodeOf s.ifid.ins)

theorem State.tableWord_instrInId (s : State) : tableWord s.instrInId s.flags = s.idCtl :=
  congrArg (controlWord s.flags) (opcode_decode s.ifid.ins)

theorem State.encode_instrInId (s : State) : encode s.instrInId = s.ifid.ins := encode_decode s.ifid.ins

/-- A running step advances the machine with the word in ID and the control word decoded from it. -/
theorem exec_instrInId_next_iff {s t : State} :
    exec s.instrInId s = .next t ↔ s.refusedAnswer = none ∧ t = s.advance s.ifid.ins s.idCtl := by
  rw [exec_next_iff, State.encode_instrInId, State.tableWord_instrInId]

theorem State.holds_instrInId (s : State) : s.holds s.instrInId = (s.hazardOf s.ifid.ins s.idCtl).stall := by
  rw [State.holds, State.encode_instrInId, State.tableWord_instrInId, hazardOf_stall]

/-- What a step that answers a next state did. -/
theorem step_next_cases {s t : State} (h : step s = .next t) :
    (0 < s.rc ∧ t = s.resettingStep)
    ∨ (s.isHalted = true ∧ t = s)
    ∨ (s.rc = 0 ∧ s.isHalted = false ∧ s.refusedAnswer = none ∧ t = s.advance s.ifid.ins s.idCtl) := by
  obtain ⟨resetting, hs⟩ | ⟨-, halted, hs⟩ | ⟨hrc, running, hs⟩ := step_cases s
  · exact .inl ⟨resetting, (Host.Outcome.next.inj (hs.symm.trans h)).symm⟩
  · exact .inr (.inl ⟨halted, (Host.Outcome.next.inj (hs.symm.trans h)).symm⟩)
  · exact .inr (.inr ⟨hrc, running, exec_instrInId_next_iff.mp (hs.symm.trans h)⟩)

theorem step_next_of_running {s : State} (hrc : s.rc = 0) (running : s.isHalted = false)
    (answered : s.refusedAnswer = none) : step s = .next (s.advance s.ifid.ins s.idCtl) :=
  (step_of_running hrc running).trans (exec_instrInId_next_iff.mpr ⟨answered, rfl⟩)

/-- What a running step that answers did. -/
theorem eq_advance_of_running {s t : State} (hrc : s.rc = 0) (running : s.isHalted = false) (h : step s = .next t) :
    t = s.advance s.ifid.ins s.idCtl :=
  (exec_instrInId_next_iff.mp ((step_of_running hrc running).symm.trans h)).2

/-- The step of a core that is not running changes no part of the host's. -/
theorem data_of_not_running {s t : State} (h : step s = .next t) (idle : s.isResetting = true ∨ s.isHalted = true) :
    t.data = s.data := by
  obtain ⟨-, rfl⟩ | ⟨-, rfl⟩ | ⟨hrc, running, -, -⟩ := step_next_cases h
  · rfl
  · rfl
  · rw [State.isResetting_iff, hrc, running] at idle
    simp at idle

/-! ## The host's answers (20_memory.md R75 to R77) -/

theorem State.memPhase_data (s : State) : s.memPhase.1
    = if s.exmem.ctl.memLoad then s.data.answer s.exmem.y else if s.exmem.ctl.assertStoreOp then s.exmem.storeOp else 0 :=
  memAccess_data ..

theorem State.memPhase_space (s : State) : s.memPhase.2
    = { answers := if s.exmem.ctl.memLoad then s.data.answers.tail else s.data.answers
        calls := s.data.calls ++ (if s.exmem.ctl.memLoad then [.load s.exmem.y (s.data.answer s.exmem.y)] else [])
          ++ (if s.exmem.ctl.memStore then [.store s.exmem.storeOp s.exmem.y] else []) } :=
  memAccess_space ..

/-- A host that keeps its answers to 16 bits is never refused. -/
theorem State.answered_of_keepsRange {s : State} (h : s.hostKeepsRange = true) : s.refusedAnswer = none := by
  rw [Option.eq_none_iff_forall_ne_some]
  intro n refused
  obtain ⟨-, hhead, hn⟩ := (refusedAnswer_eq_some_iff s n).mp refused
  have hlt : n < 2 ^ 16 := of_decide_eq_true (List.all_eq_true.mp h n (List.mem_of_mem_head? hhead))
  omega

/-- MEM takes answers off the front of the list, so those left are still in range. -/
theorem State.keepsRange_memPhase {s : State} (h : s.hostKeepsRange = true) :
    s.memPhase.2.answers.all (fun n => decide (n < 2 ^ 16)) = true := by
  rw [State.memPhase_space]
  split
  · exact List.all_eq_true.mpr fun n hn => List.all_eq_true.mp h n (List.mem_of_mem_tail hn)
  · exact h

theorem runningStep_refused_iff (ins : Word) (w : Ctl) (s : State) (r : Refusal) :
    runningStep ins w s = .refused r ↔ ∃ n, s.refusedAnswer = some n ∧ r = .loadAnswerOutOfRange n := by
  unfold runningStep
  cases s.refusedAnswer with
  | some n => simp [eq_comm]
  | none => simp

/-! ## The status outputs (43_pipeline.md R275) -/

theorem State.isStalling_iff (s : State) : s.isStalling = true
    ↔ s.rc = 0 ∧ s.isHalted = false ∧ s.idex.ctl.j = false ∧ (s.hazardOf s.ifid.ins s.idCtl).stall = true := by
  simp only [State.isStalling, Bool.and_eq_true, Bool.not_eq_true', beq_iff_eq, and_assoc]
  rfl

/-! ## The ports (42_hazard_unit.md R239) -/

section Ports
variable (s : State) (ins : Word) (w : Ctl)

theorem hazardOf_vA : (s.hazardOf ins w).vA
    = portValue (s.hazardOf ins w).selA (s.wbRegs.read (fieldA ins)) s.exProducer s.memProducer := rfl

theorem hazardOf_vB : (s.hazardOf ins w).vB
    = portValue (s.hazardOf ins w).selB (s.wbRegs.read (fieldB ins)) s.exProducer s.memProducer := rfl

end Ports

/-! ## The statements about the phases and the status -/

/-- Settles O24: the status asks what a running step asks, and the other two latch cases are flush and normal. -/
theorem stallingStatusPredictsTheStall : Obligations.StallingStatusPredictsTheStall := by
  intro s answered
  refine ⟨fun stalling => ?_, fun notStalling hrc running => ?_⟩
  · obtain ⟨hrc, running, noJump, stall⟩ := s.isStalling_iff.mp stalling
    rw [step_next_of_running hrc running answered, advance_of_stall noJump stall]
  · rw [step_next_of_running hrc running answered]
    obtain ⟨-, flushed⟩ | ⟨noJump, stall, -⟩ | ⟨-, -, entered⟩ := advance_cases s s.ifid.ins s.idCtl
    · exact .inl (congrArg _ flushed)
    · exact absurd (s.isStalling_iff.mpr ⟨hrc, running, noJump, stall⟩) (Bool.eq_false_iff.mp notStalling)
    · exact .inr (congrArg _ entered)

/-- Settles O25, one law of the step per case. -/
theorem stepRunsTheInstructionInId : Obligations.StepRunsTheInstructionInId := by
  rintro s i rfl
  exact ⟨step_of_running, step_of_halted, step_of_resetting⟩

/-- Settles O26: the step is the normal latch, and the next one is a running step since no HLT was in EX. -/
theorem fetchedWordRunsInTheNextStep : Obligations.FetchedWordRunsInTheNextStep := by
  intro i s t hrc noHlt issues h
  obtain rfl : s.latchNormal _ = t := Host.Outcome.next.inj ((exec_of_issues issues).symm.trans h)
  exact ⟨rfl, rfl, step_of_running hrc (State.not_halted_of_hlt noHlt)⟩

/-- Settles O28: every latch case takes the registers from WB, and an unforwarded port reads them. -/
theorem writeBackIsTheOnlyRegisterWrite : Obligations.WriteBackIsTheOnlyRegisterWrite := by
  intro i s t h
  have regs : t.regs = s.wbRegs := by rw [exec_next_eq_advance h, State.advance_regs]
  refine ⟨fun r => ?_, fun unforwarded => ?_, fun unforwarded => ?_⟩
  · rw [regs, State.wbRegs, Regs.read_writeBack, mergeBytes, BitVec.or_comm]
    rfl
  · rw [hazardOf_vA, unforwarded, regs]
    rfl
  · rw [hazardOf_vB, unforwarded, regs]
    rfl

/-- Settles O29: every latch case takes MEM/WB and the data space from the MEM phase. -/
theorem memPhaseCallsTheHost : Obligations.MemPhaseCallsTheHost := by
  intro i s t h
  obtain rfl := exec_next_eq_advance h
  rw [State.advance_memwb, State.advance_data, State.memPhase_space]
  exact ⟨rfl, rfl, rfl, s.memPhase_data, rfl, rfl⟩

/-- Settles O33: the one refusal is that of the running step, and MEM leaves the answers in range. -/
theorem stepStopsOnlyOnHostMisuse : Obligations.StepStopsOnlyOnHostMisuse := by
  intro s
  refine ⟨fun keeps => ?_, (fun f => nomatch f), fun r refused => ?_⟩
  · obtain ⟨-, hs⟩ | ⟨-, -, hs⟩ | ⟨hrc, running, -⟩ := step_cases s
    · exact ⟨_, hs, keeps⟩
    · exact ⟨_, hs, keeps⟩
    · refine ⟨_, step_next_of_running hrc running (State.answered_of_keepsRange keeps), ?_⟩
      rw [State.hostKeepsRange, State.advance_data]
      exact State.keepsRange_memPhase keeps
  · obtain ⟨-, hs⟩ | ⟨-, -, hs⟩ | ⟨hrc, -, hs⟩ := step_cases s
    · cases hs.symm.trans refused
    · cases hs.symm.trans refused
    · rw [hs, exec_eq, runningStep_refused_iff] at refused
      obtain ⟨n, outOfRange, rfl⟩ := refused
      obtain ⟨load, hhead, hn⟩ := (refusedAnswer_eq_some_iff s n).mp outOfRange
      exact ⟨hrc, load, n, rfl, hn, hhead⟩

/-- Settles O34: of the words in the table only LOAD's asks for a load and only STORE's for a store. -/
theorem atMostOneCallInAStep : Obligations.AtMostOneCallInAStep := by
  intro s t words h
  obtain ⟨-, memWord, -⟩ := words
  have running (hrc : s.rc = 0) (notHalted : s.isHalted = false) :
      (s.exmem.ctl = 0x5E4D88#23 → t.data.calls = s.data.calls ++ [.load s.exmem.y t.memwb.data])
      ∧ (s.exmem.ctl = 0x018D90#23 → t.data.calls = s.data.calls ++ [.store s.exmem.storeOp s.exmem.y])
      ∧ (s.exmem.ctl ≠ 0x5E4D88#23 → s.exmem.ctl ≠ 0x018D90#23 → t.data = s.data) := by
    obtain rfl := eq_advance_of_running hrc notHalted h
    rw [State.advance_memwb, State.advance_data]
    refine ⟨fun load => ?_, fun store => ?_, fun notLoad notStore => ?_⟩
    · have memLoad : s.exmem.ctl.memLoad = true := by rw [load]; decide
      have memStore : s.exmem.ctl.memStore = false := by rw [load]; decide
      simp [State.memPhase_space, State.memPhase_data, memLoad, memStore]
    · have memLoad : s.exmem.ctl.memLoad = false := by rw [store]; decide
      have memStore : s.exmem.ctl.memStore = true := by rw [store]; decide
      simp [State.memPhase_space, memLoad, memStore]
    · have memLoad : s.exmem.ctl.memLoad = false := Bool.eq_false_iff.mpr fun load => notLoad (eq_of_memLoad memWord load)
      have memStore : s.exmem.ctl.memStore = false :=
        Bool.eq_false_iff.mpr fun store => notStore (eq_of_memStore memWord store)
      exact memAccess_quiet memLoad memStore _ _ _
  refine ⟨?_, data_of_not_running h, running⟩
  obtain ⟨resetting, -⟩ | ⟨halted, -⟩ | ⟨hrc, notHalted, -, -⟩ := step_next_cases h
  · exact .inl (congrArg DataSpace.calls (data_of_not_running h (.inl (s.isResetting_iff.mpr resetting))))
  · exact .inl (congrArg DataSpace.calls (data_of_not_running h (.inr halted)))
  · obtain ⟨ofLoad, ofStore, ofOther⟩ := running hrc notHalted
    by_cases load : s.exmem.ctl = 0x5E4D88#23
    · exact .inr ⟨_, ofLoad load⟩
    · by_cases store : s.exmem.ctl = 0x018D90#23
      · exact .inr ⟨_, ofStore store⟩
      · exact .inl (congrArg DataSpace.calls (ofOther load store))

/-- Settles O52, by the law of the resetting step. -/
theorem resettingStepOnlyCounts : Obligations.ResettingStepOnlyCounts := fun _ resetting => step_of_resetting resetting

/-! ## The invariants -/

/-- Settles O58: EX and MEM pass their words on, and ID gives the decoder's word or a bubble. -/
theorem stepKeepsWordsInTheTable : Obligations.StepKeepsWordsInTheTable := by
  intro s t words h
  have ⟨inEx, inMem, _⟩ := words
  obtain ⟨-, rfl⟩ | ⟨-, rfl⟩ | ⟨-, -, -, rfl⟩ := step_next_cases h
  · exact ⟨inDecoderTable_nopWord, inDecoderTable_nopWord, inDecoderTable_nopWord⟩
  · exact words
  · refine ⟨?_, by rw [State.advance_exmem]; exact inEx, by rw [State.advance_memwb]; exact inMem⟩
    obtain ⟨-, flushed⟩ | ⟨-, -, stalled⟩ | ⟨-, -, entered⟩ := advance_cases s s.ifid.ins s.idCtl
    · rw [flushed]; exact inDecoderTable_nopWord
    · rw [stalled]; exact inDecoderTable_nopWord
    · rw [entered]; exact inDecoderTable_controlWord s.flags (opcodeOf s.ifid.ins)

/-- The word 0x0000 of a bubble in IF/ID decodes to the NOP control word. -/
theorem State.idCtl_of_bubble {s : State} (h : s.ifid = IfId.bubble) : s.idCtl = nopWord := by
  rw [State.idCtl, h]
  exact (controlWord_fixed 0 s.flags (by decide)).trans (by decide)

/-- The normal latch moves the word in ID and its address on together: what was at the PC less 1 is at the PC less 2. -/
theorem State.pcRelations_latchNormal {s : State} (h : s.ifid = IfId.bubble ∨ s.ifid.ins = s.fetch (s.pc - 1)) :
    (s.latchNormal (s.idContent s.ifid.ins s.idCtl)).pcRelations := by
  have inId : s.pc + 1 - 1 = s.pc := BitVec.add_sub_cancel s.pc 1
  have inEx : s.pc + 1 - 2 = s.pc - 1 := by bv_omega
  refine ⟨.inr ?_, ?_⟩
  · exact congrArg s.fetch inId.symm
  · rcases h with bubble | fetched
    · exact .inl (State.idCtl_of_bubble bubble)
    · have fetchedInEx : (s.latchNormal (s.idContent s.ifid.ins s.idCtl)).fetch (s.pc + 1 - 2) = s.ifid.ins := by
        rw [inEx]
        exact fetched.symm
      right
      rw [State.latchNormal_pc, State.latchNormal_idex, fetchedInEx, inId]
      refine ⟨rfl, rfl, ⟨s.flags, rfl⟩, fun link => ?_⟩
      exact congrArg (storeOperand · s.ifid.ins _ s.pc) link

/-- Settles O59: bubbles on a flush and a stall, and the normal latch moves both words and the PC on by one. -/
theorem stepKeepsPcRelations : Obligations.StepKeepsPcRelations := by
  intro s t relations h
  have ⟨inId, _⟩ := relations
  obtain ⟨-, rfl⟩ | ⟨-, rfl⟩ | ⟨-, -, -, rfl⟩ := step_next_cases h
  · exact ⟨.inl rfl, .inl rfl⟩
  · exact relations
  · obtain ⟨-, flushed⟩ | ⟨-, -, stalled⟩ | ⟨-, -, entered⟩ := advance_cases s s.ifid.ins s.idCtl
    · rw [flushed]
      exact ⟨.inl rfl, .inl rfl⟩
    · rw [stalled]
      exact ⟨inId, .inl rfl⟩
    · rw [entered]
      exact State.pcRelations_latchNormal inId

/-- Settles O60: a resetting step leaves bubbles, and a running one a counter of 0. -/
theorem stepKeepsResetQuiet : Obligations.StepKeepsResetQuiet := by
  intro s t quiet wf bound h
  obtain ⟨-, rfl⟩ | ⟨-, rfl⟩ | ⟨hrc, -, -, rfl⟩ := step_next_cases h
  · exact ⟨fun _ => ⟨rfl, rfl, rfl, rfl, rfl⟩, wf, (Nat.sub_le s.rc 1).trans bound⟩
  · exact ⟨quiet, wf, bound⟩
  · rw [State.advance_imem, State.advance_rc]
    refine ⟨fun resetting => ?_, wf, bound⟩
    rw [State.isResetting_iff, State.advance_rc, hrc] at resetting
    exact absurd resetting (Nat.lt_irrefl 0)

/-! ## Runs and the halt (43_pipeline.md R274, R276) -/

theorem run_succ_of_next {s t : State} (h : step s = .next t) (n : Nat) : core.run (n + 1) s = core.run n t := by
  have hs : core.step s = .next t := h
  simp only [Host.Core.run, hs]

theorem run_of_fixed {s : State} (h : step s = .next s) (n : Nat) : core.run n s = .next s := by
  induction n with
  | zero => rfl
  | succ n ih => rw [run_succ_of_next h, ih]

/-- Settles O32: HLT moves from EX to MEM, where it makes the core halted, a state no step leaves. -/
theorem haltLosesThePrecedingWrite : Obligations.HaltLosesThePrecedingWrite := by
  intro s t hrc noHlt hlt h
  have notHalted : s.isHalted = false := State.not_halted_of_hlt noHlt
  have keepsFlags : s.exFlags = s.flags := State.exFlags_of_no_fi (by rw [hlt]; decide)
  obtain rfl := eq_advance_of_running hrc notHalted h
  have halted : (s.advance s.ifid.ins s.idCtl).isHalted = true := by
    rw [State.isHalted_iff, State.advance_rc, State.advance_exmem, hlt]
    exact ⟨hrc, show Ctl.hlt 0x600001#23 = true by decide⟩
  exact ⟨halted, run_of_fixed (step_of_halted halted), State.advance_regs .., (State.advance_flags ..).trans keepsFlags,
    State.advance_data .., congrArg MemWb.ctl (State.advance_memwb ..)⟩

end Sys2Proof.Machine
end

section
/-! PROOFS. The program-order reading (70_reset_and_hazards.md R437): forwarding gives the ports what program order has, an
instruction that enters EX adds its own effect and nothing else to the reading, and that effect is its pseudocode. -/

namespace Sys2Proof.Machine

/-! ## The ports (42_hazard_unit.md R239, R241) -/

/-- A used port that does not stall reads what program order gives its register. In EX only an ALU result is forwarded,
whose producer writes both bytes, so that what MEM writes below it does not show. -/
theorem portValue_eq_read {s : State} (word : inDecoderTable s.idex.ctl) {r : RegIdx}
    (free : (portSelect false r s.idex.ctl s.idex.selC s.exmem.ctl s.exmem.selC).2 = false) :
    portValue (portSelect false r s.idex.ctl s.idex.selC s.exmem.ctl s.exmem.selC).1 (s.wbRegs.read r) s.exProducer
      s.memProducer = s.afterEx.1.read r := by
  have afterEx : s.afterEx.1
      = s.afterMem.1.writeBack s.idex.ctl s.idex.selC s.exY (memAccess s.idex.ctl s.exY s.idex.storeOp s.afterMem.2).1 :=
    rfl
  have afterMem : s.afterMem.1 = s.wbRegs.writeBack s.exmem.ctl s.exmem.selC s.exmem.y s.memPhase.1 := rfl
  obtain ⟨-, -, stall⟩ | ⟨inEx, alu, sel⟩ | ⟨notInEx, inMem, sel⟩ | ⟨notInEx, notInMem, sel⟩ :=
    portSelect_cases r s.idex.ctl s.idex.selC s.exmem.ctl s.exmem.selC
  · rw [stall] at free
    cases free
  · have wben : s.idex.ctl.wben = true := by
      simp only [writesReg, Bool.and_eq_true] at inEx
      exact inEx.1.1
    obtain ⟨low, high⟩ := (consistent_of_inDecoderTable word).alu_writer_full wben alu
    rw [sel, afterEx, Regs.read_writeBack_of_writesReg _ _ _ inEx, alu, mergeBytes_both low high]
    exact mergeBytes_both low high _ _
  · rw [sel, afterEx, Regs.read_writeBack_of_not_writesReg _ _ _ notInEx, afterMem,
      Regs.read_writeBack_of_writesReg _ _ _ inMem]
    rfl
  · rw [sel, afterEx, Regs.read_writeBack_of_not_writesReg _ _ _ notInEx, afterMem,
      Regs.read_writeBack_of_not_writesReg _ _ _ notInMem]
    rfl

section Ports
variable {s : State} {i : Instr}

/-- No port of an instruction that is not held stalls. -/
theorem ports_free_of_not_held (free : s.holds i = false) :
    (portSelect (tableWord i s.flags).leftUnused (fieldA (encode i)) s.idex.ctl s.idex.selC s.exmem.ctl
        s.exmem.selC).2 = false
    ∧ (portSelect (tableWord i s.flags).rightUnused (fieldB (encode i)) s.idex.ctl s.idex.selC s.exmem.ctl
        s.exmem.selC).2 = false := by
  rw [State.holds, hazardStall, Bool.or_eq_false_iff, Bool.or_eq_false_iff] at free
  exact free.1

variable (word : inDecoderTable s.idex.ctl) (free : s.holds i = false)
include word free

theorem vA_eq_read (used : (tableWord i s.flags).leftUnused = false) :
    (s.hazardOf (encode i) (tableWord i s.flags)).vA = s.afterEx.1.read (fieldA (encode i)) := by
  have portFree := (ports_free_of_not_held free).1
  rw [used] at portFree
  rw [← portValue_eq_read word portFree, ← used]
  rfl

theorem vB_eq_read (used : (tableWord i s.flags).rightUnused = false) :
    (s.hazardOf (encode i) (tableWord i s.flags)).vB = s.afterEx.1.read (fieldB (encode i)) := by
  have portFree := (ports_free_of_not_held free).2
  rw [used] at portFree
  rw [← portValue_eq_read word portFree, ← used]
  rfl

end Ports

/-- Settles O23: neither port stalls, and a port that does not stall reads in program order. -/
theorem forwardedPortsReadInProgramOrder : Obligations.ForwardedPortsReadInProgramOrder :=
  fun _ _ word free => ⟨vA_eq_read word free, vB_eq_read word free⟩

/-! ## What a running step makes of the reading (43_pipeline.md R270 to R273) -/

section Advance
variable (s : State) (ins : Word) (w : Ctl)

/-- The instruction in MEM reaches WB. -/
theorem State.wbRegs_advance : (s.advance ins w).wbRegs = s.afterMem.1 := by rw [advance_eq_retire]; rfl

/-- The instruction in EX reaches MEM. -/
theorem State.afterMem_advance : (s.advance ins w).afterMem = s.afterEx := by rw [advance_eq_retire]; rfl

end Advance

/-- The program-order state as the instruction in ID meets it when EX holds no jump: registers, flags and data space with
every older instruction completed, and its own address. -/
def State.fromId (s : State) : Arch :=
  { regs := s.afterEx.1, flags := s.exFlags, next := s.pc - 1, data := s.afterEx.2, halted := s.idex.ctl.hlt }

theorem State.settle_eq_fromId {s : State} (noJump : s.idex.ctl.j = false) (noHlt : s.exmem.ctl.hlt = false) :
    s.settle = s.fromId := by
  simp [State.settle, State.fromId, noJump, noHlt]

/-- What an instruction that enters EX with content `k` and gets `v` from the ALU does to the program-order state. -/
def Arch.issue (t : Arch) (k : IdEx) (v : AluValue) : Arch :=
  { regs := (complete k.ctl k.selC v.fc k.storeOp t.regs t.data).1
    flags := if k.ctl.fi then v.flags else t.flags
    next := if k.ctl.j then (if k.ctl.jabs then v.fc else t.next + 2 + k.off) else t.next + 1
    data := (complete k.ctl k.selC v.fc k.storeOp t.regs t.data).2
    halted := k.ctl.hlt || t.halted }

/-- The normal latch adds the entering instruction's effect to the reading. -/
theorem State.settle_latchNormal (s : State) (k : IdEx) :
    (s.latchNormal k).settle = s.fromId.issue k (k.aluValue s.exY) := by
  have here : s.pc + 1 - 1 = s.pc - 1 + 1 := by bv_omega
  have jump : s.pc + 1 + k.off = s.pc - 1 + 2 + k.off := by bv_omega
  have settled : (s.latchNormal k).settle = { s.fromId.issue k (k.aluValue s.exY) with
      next := if k.ctl.j then (if k.ctl.jabs then (k.aluValue s.exY).fc else s.pc + 1 + k.off) else s.pc + 1 - 1 } := rfl
  rw [settled, here, jump]
  rfl

end Sys2Proof.Machine
end

section
/-! PROOFS. The effect of each instruction that enters EX (files 44 to 46): the operands ID gives it, what its row of the
decoder's table makes of the program-order state, and that this is its pseudocode; the statements about the instructions. -/

namespace Sys2Proof.Machine

/-! ## What a row makes of the program-order state (40_decoder.md R167; 43_pipeline.md R262 to R266) -/

section Issue
variable {t : Arch} {k : IdEx} (v : AluValue)

/-- A row with an idle ALU, no access and no write jumps by the offset or moves on. -/
theorem Arch.issue_idle {taken : Bool} (h : k.ctl = { idleRow with j := taken }.pack) :
    t.issue k v = if taken then { t with next := t.next + 2 + k.off } else t.skip := by
  cases taken <;> simp [Arch.issue, complete, memAccess, Regs.writeBack, Arch.skip, h, idleRow]

theorem Arch.issue_hlt (h : k.ctl = { idleRow with hlt := true }.pack) :
    t.issue k v = { t.skip with halted := true } := by
  simp [Arch.issue, complete, memAccess, Regs.writeBack, Arch.skip, h, idleRow]

/-- An ALU row that writes its result, whatever it routes to the ALU. -/
theorem Arch.issue_compute {i : BitVec 3} {c0 unused : Bool} {rs sel : BitVec 2}
    (h : k.ctl = { registerRow i c0 with rs := rs, selRightOp := sel, rightUnused := unused }.pack) :
    t.issue k v = t.compute k.selC v.fc v.flags := by
  simp [Arch.issue, complete, memAccess, Regs.writeBack, mergeBytes_both, Arch.compute, h, registerRow]

theorem Arch.issue_compare {unused : Bool} {sel : BitVec 2}
    (h : k.ctl = { i := 2, rs := 3, selRightOp := sel, fi := true, c0 := true, rightUnused := unused : Signals }.pack) :
    t.issue k v = t.compare v.flags := by
  simp [Arch.issue, complete, memAccess, Regs.writeBack, Arch.compare, h]

theorem Arch.issue_load (h : k.ctl = (signalsOf Flags.clear 2).pack) : t.issue k v = t.loadReg k.selC v.fc := by
  simp [Arch.issue, complete, memAccess, Regs.writeBack, mergeBytes_both, Arch.loadReg, h, signalsOf]

theorem Arch.issue_store (h : k.ctl = (signalsOf Flags.clear 3).pack) : t.issue k v = t.storeWord v.fc k.storeOp := by
  simp [Arch.issue, complete, memAccess, Regs.writeBack, Arch.storeWord, h, signalsOf]

theorem Arch.issue_li (h : k.ctl = (signalsOf Flags.clear 4).pack) : t.issue k v = t.setReg k.selC k.storeOp := by
  simp [Arch.issue, complete, memAccess, Regs.writeBack, mergeBytes_both, Arch.setReg, h, signalsOf, idleRow]

/-- LUI writes the high byte alone. -/
theorem Arch.issue_lui (h : k.ctl = (signalsOf Flags.clear 5).pack) : t.issue k v
    = t.setReg k.selC ((k.storeOp &&& 0xFF00) ||| (t.regs.read k.selC &&& 0x00FF)) := by
  simp [Arch.issue, complete, memAccess, Regs.writeBack, mergeBytes, byteMask, Arch.setReg, h, signalsOf, idleRow]

theorem Arch.issue_jr (h : k.ctl = (signalsOf Flags.clear 21).pack) : t.issue k v = { t with next := v.fc } := by
  simp [Arch.issue, complete, memAccess, Regs.writeBack, h, signalsOf]

theorem Arch.issue_jalr (h : k.ctl = (signalsOf Flags.clear 22).pack) : t.issue k v
    = { t with regs := t.regs.write k.selC k.storeOp, next := v.fc } := by
  simp [Arch.issue, complete, memAccess, Regs.writeBack, mergeBytes_both, h, signalsOf]

end Issue

/-! ## The content ID gives, in program order (43_pipeline.md R268) -/

/-- What `i`, in ID, takes into EX. -/
def State.content (s : State) (i : Instr) : IdEx := s.idContent (encode i) (tableWord i s.flags)

/-- The program-order state once `i`, in ID, has entered EX. -/
def State.enter (s : State) (i : Instr) : Arch := s.fromId.issue (s.content i) ((s.content i).aluValue s.exY)

/-- The ALU with both operands routed to the function block. -/
theorem IdEx.aluValue_direct {k : IdEx} (h : k.ctl.rs = 3) (aluF : Word) :
    k.aluValue aluF = aluFunction k.ctl.i k.left k.right k.ctl.c0 := by
  rw [IdEx.aluValue, h]
  rfl

section Content
variable (s : State) (i : Instr)

@[simp] theorem State.content_ctl : (s.content i).ctl = tableWord i s.flags := rfl
@[simp] theorem State.content_selC : (s.content i).selC = fieldC (encode i) := rfl

end Content

section Operands
variable {s : State} {i : Instr} {g : Signals} (row : tableWord i s.flags = g.pack)
include row

theorem State.content_right (sel : BitVec 2) (hsel : g.selRightOp = sel) :
    (s.content i).right = rightOperand sel (encode i) (s.hazardOf (encode i) (tableWord i s.flags)).vB := by
  rw [← hsel, ← g.pack_selRightOp, ← row]
  rfl

theorem State.content_storeOp (sel : BitVec 2) (hsel : g.selStoreOp = sel) :
    (s.content i).storeOp
      = storeOperand sel (encode i) (s.hazardOf (encode i) (tableWord i s.flags)).vB s.pc := by
  rw [← hsel, ← g.pack_selStoreOp, ← row]
  rfl

/-- The link of JALR: the PC of the step is the address of the instruction in ID plus 1. -/
theorem State.content_storeOp_link (sel : g.selStoreOp = 1) : (s.content i).storeOp = s.fromId.next + 1 :=
  (State.content_storeOp row 1 sel).trans (BitVec.sub_add_cancel s.pc 1).symm

variable (word : inDecoderTable s.idex.ctl) (free : s.holds i = false)
include word free

theorem State.content_left (used : g.leftUnused = false) :
    (s.content i).left = s.fromId.regs.read (fieldA (encode i)) :=
  vA_eq_read word free (by rw [row, g.pack_leftUnused, used])

theorem State.content_right_read (used : g.rightUnused = false) (sel : g.selRightOp = 0) :
    (s.content i).right = s.fromId.regs.read (fieldB (encode i)) :=
  (State.content_right row 0 sel).trans (vB_eq_read word free (by rw [row, g.pack_rightUnused, used]))

theorem State.content_storeOp_read (used : g.rightUnused = false) (sel : g.selStoreOp = 0) :
    (s.content i).storeOp = s.fromId.regs.read (fieldB (encode i)) :=
  (State.content_storeOp row 0 sel).trans (vB_eq_read word free (by rw [row, g.pack_rightUnused, used]))

end Operands

/-! ## Each instruction against its pseudocode (44_alu_instructions.md to 46_control_instructions.md) -/

/-- The high byte from one word and the low byte from another (45_memory_and_immediate_instructions.md R343). -/
theorem append_low_byte (imm : BitVec 8) (x : Word) :
    ((imm ++ 0#8 : Word) &&& 0xFF00) ||| (x &&& 0x00FF) = imm ++ x.extractLsb' 0 8 := by
  apply BitVec.eq_of_getLsbD_eq
  intro k hk
  have joined : (imm ++ x.extractLsb' 0 8).getLsbD k = if k < 8 then x.getLsbD k else imm.getLsbD (k - 8) := by
    rw [BitVec.getLsbD_append]
    split <;> simp [*]
  have high : (imm ++ 0#8).getLsbD k = if k < 8 then false else imm.getLsbD (k - 8) := by
    rw [BitVec.getLsbD_append]
    split <;> simp [*]
  have masks : (0xFF00#16).getLsbD k = decide (8 ≤ k) ∧ (0x00FF#16).getLsbD k = decide (k < 8) := by
    clear joined high
    revert k
    decide
  obtain ⟨maskHigh, maskLow⟩ := masks
  calc (((imm ++ 0#8 : Word) &&& 0xFF00) ||| (x &&& 0x00FF)).getLsbD k
    _ = ((imm ++ 0#8).getLsbD k && (0xFF00#16).getLsbD k || x.getLsbD k && (0x00FF#16).getLsbD k) := by
      rw [BitVec.getLsbD_or, BitVec.getLsbD_and, BitVec.getLsbD_and]
      rfl
    _ = (imm ++ x.extractLsb' 0 8).getLsbD k := by
      rw [high, joined, maskHigh, maskLow]
      by_cases low : k < 8
      · simp [low]
      · simp [low, Nat.le_of_not_lt low]

section Branch
variable {s : State} {i : Instr}

theorem State.enter_branch {taken : Bool} {off : BitVec 10} (hoff : fieldOff10 (encode i) = off)
    (row : tableWord i s.flags = { idleRow with j := taken }.pack) : s.enter i = s.fromId.branch taken off := by
  subst hoff
  exact Arch.issue_idle _ row

/-- An instruction that reads the flags reads them in program order. -/
theorem State.fromId_flags (reads : 24 ≤ i.opcode.toNat) (free : s.holds i = false) : s.fromId.flags = s.flags :=
  State.exFlags_of_not_held reads free

end Branch

section Enter
variable {s : State} {i : Instr} {c a b : RegIdx} {ign : BitVec 2} {imm : BitVec 5} {o : Opcode} {op : BitVec 3} {c0 : Bool}
variable (word : inDecoderTable s.idex.ctl) (free : s.holds i = false)
include word free

/-- The ALU of an instruction of format RRR or RR. -/
theorem State.aluValue_register {g : Signals} (henc : encode i = formatRRR o c a b ign)
    (row : tableWord i s.flags = g.pack) (left : g.leftUnused = false) (right : g.rightUnused = false)
    (sel : g.selRightOp = 0) (rs : g.rs = 3) :
    (s.content i).aluValue s.exY = aluFunction g.i (s.fromId.regs.read a) (s.fromId.regs.read b) g.c0 := by
  rw [IdEx.aluValue_direct (by simp [row, rs]), State.content_left row word free left,
    State.content_right_read row word free right sel, henc, fieldA_formatRRR, fieldB_formatRRR, State.content_ctl, row,
    Signals.pack_i, Signals.pack_c0]

/-- The ALU of an instruction of format RRI or RI. -/
theorem State.aluValue_immediate {g : Signals} (henc : encode i = formatRRI o c a imm)
    (row : tableWord i s.flags = g.pack) (left : g.leftUnused = false) (sel : g.selRightOp = 1) (rs : g.rs = 3) :
    (s.content i).aluValue s.exY = aluFunction g.i (s.fromId.regs.read a) (sext 5 imm) g.c0 := by
  have right : (s.content i).right = sext 5 imm := by
    rw [State.content_right row 1 sel, henc]
    exact congrArg (sext 5) (fieldImm5_formatRRI o c a imm)
  rw [IdEx.aluValue_direct (by simp [row, rs]), State.content_left row word free left, right, henc, fieldA_formatRRI,
    State.content_ctl, row, Signals.pack_i, Signals.pack_c0]

theorem State.enter_register (henc : encode i = formatRRR o c a b ign)
    (row : tableWord i s.flags = (registerRow op c0).pack) :
    s.enter i = s.fromId.compute c (aluFunction op (s.fromId.regs.read a) (s.fromId.regs.read b) c0).fc
      (aluFunction op (s.fromId.regs.read a) (s.fromId.regs.read b) c0).flags := by
  have dest : (s.content i).selC = c := by rw [State.content_selC, henc, fieldC_formatRRR]
  rw [State.enter, State.aluValue_register word free henc row rfl rfl rfl rfl,
    Arch.issue_compute (i := op) (c0 := c0) (unused := false) (rs := 3) (sel := 0) _ row, dest]
  rfl

theorem State.enter_immediate (henc : encode i = formatRRI o c a imm)
    (row : tableWord i s.flags = (immediateRow op c0).pack) :
    s.enter i = s.fromId.compute c (aluFunction op (s.fromId.regs.read a) (sext 5 imm) c0).fc
      (aluFunction op (s.fromId.regs.read a) (sext 5 imm) c0).flags := by
  have dest : (s.content i).selC = c := by rw [State.content_selC, henc, fieldC_formatRRI]
  rw [State.enter, State.aluValue_immediate word free henc row rfl rfl rfl,
    Arch.issue_compute (i := op) (c0 := c0) (unused := true) (rs := 3) (sel := 1) _ row, dest]
  rfl

end Enter

section Instructions
variable {s : State} (word : inDecoderTable s.idex.ctl)
include word

/-- NOT adds 0, routed as its second operand, to the complement. -/
theorem State.enter_not {c a : RegIdx} {ign : BitVec 5} (free : s.holds (.not c a ign) = false) :
    s.enter (.not c a ign) = programOrder (.not c a ign) s.fromId := by
  have row : tableWord (.not c a ign) s.flags = (signalsOf s.flags 12).pack := rfl
  have left : (s.content (.not c a ign)).left = s.fromId.regs.read a :=
    (State.content_left row word free rfl).trans (congrArg s.fromId.regs.read (fieldA_formatRRI 12 c a ign))
  have value : (s.content (.not c a ign)).aluValue s.exY = aluLogic (~~~s.fromId.regs.read a) := by
    rw [← aluAdd_zero, ← left, IdEx.aluValue, State.content_ctl, row, Signals.pack_i, Signals.pack_rs, Signals.pack_c0]
    rfl
  have dest : (s.content (.not c a ign)).selC = c := fieldC_formatRRI 12 c a ign
  rw [State.enter, value, Arch.issue_compute (i := 1) (c0 := false) (rs := 1) (sel := 0) (unused := true) _ row, dest]
  rfl

theorem State.enter_cmp {ign : BitVec 3} {a b : RegIdx} {ign2 : BitVec 2} (free : s.holds (.cmp ign a b ign2) = false) :
    s.enter (.cmp ign a b ign2) = programOrder (.cmp ign a b ign2) s.fromId := by
  rw [State.enter, State.aluValue_register (g := signalsOf s.flags 6) word free rfl rfl rfl rfl rfl rfl,
    Arch.issue_compare (sel := 0) (unused := false) _ rfl]
  exact congrArg s.fromId.compare (flags_aluAdd_not_true _ _)

theorem State.enter_cmpi {ign : BitVec 3} {a : RegIdx} {imm : BitVec 5} (free : s.holds (.cmpi ign a imm) = false) :
    s.enter (.cmpi ign a imm) = programOrder (.cmpi ign a imm) s.fromId := by
  rw [State.enter, State.aluValue_immediate (g := signalsOf s.flags 13) word free rfl rfl rfl rfl rfl,
    Arch.issue_compare (sel := 1) (unused := true) _ rfl]
  exact congrArg s.fromId.compare (flags_aluAdd_not_true _ _)

theorem State.enter_load {c a : RegIdx} {imm : BitVec 5} (free : s.holds (.load c a imm) = false) :
    s.enter (.load c a imm) = programOrder (.load c a imm) s.fromId := by
  have dest : (s.content (.load c a imm)).selC = c := fieldC_formatRRI 2 c a imm
  rw [State.enter, State.aluValue_immediate (g := signalsOf s.flags 2) word free rfl rfl rfl rfl rfl,
    Arch.issue_load _ rfl, dest]
  exact congrArg (s.fromId.loadReg c) (aluAdd_false_fc _ _)

theorem State.enter_store {b a : RegIdx} {imm : BitVec 5} (free : s.holds (.store b a imm) = false) :
    s.enter (.store b a imm) = programOrder (.store b a imm) s.fromId := by
  have row : tableWord (.store b a imm) s.flags = (signalsOf s.flags 3).pack := rfl
  have left : (s.content (.store b a imm)).left = s.fromId.regs.read a :=
    (State.content_left row word free rfl).trans (congrArg s.fromId.regs.read (fieldA_formatST 3 b a imm))
  have right : (s.content (.store b a imm)).right = sext 5 imm :=
    (State.content_right row 2 rfl).trans (congrArg (sext 5) (fieldSimm_formatST 3 b a imm))
  have storeOp : (s.content (.store b a imm)).storeOp = s.fromId.regs.read b :=
    (State.content_storeOp_read row word free rfl rfl).trans
      (congrArg s.fromId.regs.read (fieldB_formatST 3 b a imm))
  rw [State.enter, IdEx.aluValue_direct (by simp [row, signalsOf]), State.content_ctl, row,
    Signals.pack_i, Signals.pack_c0, left, right, Arch.issue_store _ rfl, storeOp]
  exact congrArg (s.fromId.storeWord · _) (aluAdd_false_fc _ _)

theorem State.enter_jr {ign : BitVec 3} {a b : RegIdx} {ign2 : BitVec 2} (free : s.holds (.jr ign a b ign2) = false) :
    s.enter (.jr ign a b ign2) = programOrder (.jr ign a b ign2) s.fromId := by
  rw [State.enter, State.aluValue_register (g := signalsOf s.flags 21) word free rfl rfl rfl rfl rfl rfl,
    Arch.issue_jr _ rfl]
  exact congrArg (fun target => { s.fromId with next := target }) (aluAdd_false_fc _ _)

theorem State.enter_jalr {c a b : RegIdx} {ign : BitVec 2} (free : s.holds (.jalr c a b ign) = false) :
    s.enter (.jalr c a b ign) = programOrder (.jalr c a b ign) s.fromId := by
  have row : tableWord (.jalr c a b ign) s.flags = (signalsOf s.flags 22).pack := rfl
  have dest : (s.content (.jalr c a b ign)).selC = c := fieldC_formatRRR 22 c a b ign
  rw [State.enter, State.aluValue_register word free rfl row rfl rfl rfl rfl, Arch.issue_jalr _ rfl, dest,
    State.content_storeOp_link row rfl]
  exact congrArg (fun target => { s.fromId with regs := s.fromId.regs.write c (s.fromId.next + 1), next := target })
    (aluAdd_false_fc _ _)

end Instructions

theorem State.enter_li (s : State) (c : RegIdx) (imm : BitVec 8) :
    s.enter (.li c imm) = programOrder (.li c imm) s.fromId := by
  have row : tableWord (.li c imm) s.flags = (signalsOf s.flags 4).pack := rfl
  have dest : (s.content (.li c imm)).selC = c := fieldC_formatRI8 4 c imm
  have storeOp : (s.content (.li c imm)).storeOp = sext 8 imm :=
    (State.content_storeOp row 2 rfl).trans (congrArg (sext 8) (fieldImm8_formatRI8 4 c imm))
  rw [State.enter, Arch.issue_li _ rfl, dest, storeOp]
  rfl

theorem State.enter_lui (s : State) (c : RegIdx) (imm : BitVec 8) :
    s.enter (.lui c imm) = programOrder (.lui c imm) s.fromId := by
  have row : tableWord (.lui c imm) s.flags = (signalsOf s.flags 5).pack := rfl
  have dest : (s.content (.lui c imm)).selC = c := fieldC_formatRI8 5 c imm
  have storeOp : (s.content (.lui c imm)).storeOp = imm ++ 0#8 :=
    (State.content_storeOp row 3 rfl).trans (congrArg (· ++ 0#8) (fieldImm8_formatRI8 5 c imm))
  rw [State.enter, Arch.issue_lui _ rfl, dest, storeOp]
  exact congrArg (s.fromId.setReg c) (append_low_byte imm _)

/-- An instruction that enters EX has the effect of its pseudocode on the program-order state. -/
theorem State.enter_eq_programOrder {s : State} {i : Instr} (word : inDecoderTable s.idex.ctl) (free : s.holds i = false) :
    s.enter i = programOrder i s.fromId := by
  cases i with
  | nop | rsvd19 | rsvd23 => exact State.enter_branch (taken := false) rfl rfl
  | hlt => exact Arch.issue_hlt _ rfl
  | load => exact State.enter_load word free
  | store => exact State.enter_store word free
  | li => exact State.enter_li ..
  | lui => exact State.enter_lui ..
  | cmp => exact State.enter_cmp word free
  | cmpi => exact State.enter_cmpi word free
  | not => exact State.enter_not word free
  | add c =>
    exact (State.enter_register word free rfl rfl).trans
      (congrArg₂ (s.fromId.compute c) (aluAdd_false_fc _ _) (flags_aluAdd _ _ _))
  | sub c =>
    exact (State.enter_register word free rfl rfl).trans
      (congrArg₂ (s.fromId.compute c) (aluAdd_not_true_fc _ _) (flags_aluAdd_not_true _ _))
  | and | or | xor => exact State.enter_register word free rfl rfl
  | addi c =>
    exact (State.enter_immediate word free rfl rfl).trans
      (congrArg₂ (s.fromId.compute c) (aluAdd_false_fc _ _) (flags_aluAdd _ _ _))
  | subi c =>
    exact (State.enter_immediate word free rfl rfl).trans
      (congrArg₂ (s.fromId.compute c) (aluAdd_not_true_fc _ _) (flags_aluAdd_not_true _ _))
  | andi | ori | xori => exact State.enter_immediate word free rfl rfl
  | jmp ign off => exact State.enter_branch (taken := true) (fieldOff10_formatJ10 20 ign off) rfl
  | jr => exact State.enter_jr word free
  | jalr => exact State.enter_jalr word free
  | beq ign off | bne ign off | blt ign off | bgt ign off | bltu ign off | bgtu ign off =>
    rw [programOrder, State.fromId_flags (Nat.le_of_ble_eq_true rfl) free]
    exact State.enter_branch (fieldOff10_formatJ10 _ ign off) rfl
  | adc c =>
    rw [programOrder, State.fromId_flags (Nat.le_of_ble_eq_true rfl) free]
    exact (State.enter_register word free rfl rfl).trans
      (congrArg₂ (s.fromId.compute c) (aluAdd_fc _ _ _) (flags_aluAdd _ _ _))
  | sbc c =>
    rw [programOrder, State.fromId_flags (Nat.le_of_ble_eq_true rfl) free]
    exact (State.enter_register word free rfl rfl).trans
      (congrArg₂ (s.fromId.compute c) (aluAdd_not_fc _ _ _) (flags_aluAdd_not _ _ _))

end Sys2Proof.Machine
end

section
/-! PROOFS. Program order (44_alu_instructions.md R300, 70_reset_and_hazards.md R437): every instruction completes with its
pseudocode's effect, every step executes, holds or jumps, and the machine comes to what the reading says. -/

namespace Sys2Proof.Machine

/-! ## An instruction that is ready completes -/

theorem State.noHaltInFlight_iff (s : State) :
    s.noHaltInFlight = true ↔ s.idex.ctl.hlt = false ∧ s.exmem.ctl.hlt = false := by
  simp [State.noHaltInFlight]

/-- What nothing keeps from entering EX: no jump is in EX, and the hazard unit does not hold it. -/
theorem State.free_of_issues {s : State} {i : Instr} (h : s.issues i = true) :
    s.idex.ctl.j = false ∧ s.holds i = false := by
  simp only [State.issues, Bool.and_eq_true, Bool.not_eq_true'] at h
  exact h.1

/-- The normal latch executes the instruction in ID, in program order. -/
theorem State.settle_enter {s : State} {i : Instr} (word : inDecoderTable s.idex.ctl) (noHlt : s.exmem.ctl.hlt = false)
    (noJump : s.idex.ctl.j = false) (free : s.holds i = false) :
    (s.latchNormal (s.content i)).settle = programOrder i s.settle :=
  calc (s.latchNormal (s.content i)).settle
    _ = s.enter i := s.settle_latchNormal (s.content i)
    _ = programOrder i s.fromId := State.enter_eq_programOrder word free
    _ = programOrder i s.settle := by rw [State.settle_eq_fromId noJump noHlt]

/-- A ready instruction answers the normal latch, whose reading is its pseudocode's. -/
theorem completes {i : Instr} {s : State} (ready : s.readyFor i) :
    ∃ t, exec i s = .next t ∧ t = s.latchNormal t.idex ∧ t.settle = programOrder i s.settle := by
  obtain ⟨word, noHalt, issues⟩ := ready
  obtain ⟨noJump, free⟩ := State.free_of_issues issues
  exact ⟨_, exec_of_issues issues, rfl,
    State.settle_enter word (s.noHaltInFlight_iff.mp noHalt).2 noJump free⟩

/-- `completes`, with the pseudocode's result in another form. -/
theorem completes_as {i : Instr} {s : State} {u : Arch} (effect : programOrder i s.settle = u) (ready : s.readyFor i) :
    ∃ t, exec i s = .next t ∧ t = s.latchNormal t.idex ∧ t.settle = u :=
  effect ▸ completes ready

/-- The carry as a word. -/
theorem ofNat_carry (c : Bool) : BitVec.ofNat 16 c.toNat = if c then 1 else 0 := by
  cases c <;> rfl

/-- To subtract one and add the carry is to subtract one where there is no carry. -/
theorem sub_one_add_carry (x : Word) (c : Bool) : x - 1 + BitVec.ofNat 16 c.toNat = x - (if c then 0 else 1) := by
  cases c
  · exact BitVec.add_zero _
  · exact (BitVec.sub_add_cancel x 1).trans (BitVec.sub_zero x).symm

/-- A branch by its predicate. -/
theorem Arch.branch_eq (t : Arch) {taken : Bool} {p : Prop} [Decidable p] (h : taken = true ↔ p) (off : BitVec 10) :
    t.branch taken off = { t with next := if p then t.next + 2 + off.signExtend 16 else t.next + 1 } := by
  by_cases hp : p
  · rw [h.mpr hp, if_pos hp]; rfl
  · rw [Bool.eq_false_iff.mpr fun ht => hp (h.mp ht), if_neg hp]; rfl

/-! ## The statements about the instructions -/

/-- Settles O35, one completion per instruction. -/
theorem addSubCmpComplete : Obligations.AddSubCmpComplete :=
  ⟨fun _ _ _ _ _ => completes, fun _ _ _ _ _ => completes, fun _ _ _ _ _ => completes⟩

/-- Settles O36, one completion per instruction. -/
theorem logicComplete : Obligations.LogicComplete :=
  ⟨fun _ _ _ _ _ => completes, fun _ _ _ _ _ => completes, fun _ _ _ _ _ => completes, fun _ _ _ _ => completes⟩

/-- Settles O37, one completion per instruction. -/
theorem immediateArithmeticCompletes : Obligations.ImmediateArithmeticCompletes :=
  ⟨fun _ _ _ _ => completes, fun _ _ _ _ => completes, fun _ _ _ _ => completes⟩

/-- Settles O38, one completion per instruction. -/
theorem immediateLogicCompletes : Obligations.ImmediateLogicCompletes :=
  ⟨fun _ _ _ _ => completes, fun _ _ _ _ => completes, fun _ _ _ _ => completes⟩

/-- Settles O39: the carry that the pseudocode adds as a number, taken case by case. -/
theorem carryArithmeticCompletes : Obligations.CarryArithmeticCompletes := by
  refine ⟨fun c a b ign s => completes_as ?_, fun c a b ign s => completes_as ?_⟩
  · rw [← ofNat_carry]
    rfl
  · rw [← sub_one_add_carry]
    rfl

/-- Settles O40, by the completion of LOAD. -/
theorem loadCompletes : Obligations.LoadCompletes := fun _ _ _ _ => completes

/-- Settles O41, by the completion of STORE. -/
theorem storeCompletes : Obligations.StoreCompletes := fun _ _ _ _ => completes

/-- Settles O42: the low byte LUI keeps is the register narrowed to 8 bits. -/
theorem loadImmediateCompletes : Obligations.LoadImmediateCompletes := by
  refine ⟨fun _ _ _ => completes, fun c imm s => completes_as ?_⟩
  rw [BitVec.setWidth_eq_extractLsb' (by decide)]
  rfl

/-- Settles O43, one completion per instruction. -/
theorem nopAndReservedComplete : Obligations.NopAndReservedComplete :=
  fun _ _ => ⟨completes, completes, completes⟩

/-- Settles O45, one completion per instruction. -/
theorem jumpsComplete : Obligations.JumpsComplete :=
  ⟨fun _ _ _ => completes, fun _ _ _ _ _ => completes, fun _ _ _ _ _ => completes⟩

/-- Settles O46: each branch by its predicate over the flags. -/
theorem branchesComplete : Obligations.BranchesComplete := by
  intro ign off s
  exact ⟨completes_as (Arch.branch_eq _ Iff.rfl off), completes_as (Arch.branch_eq _ (by simp) off),
    completes_as (Arch.branch_eq _ (by simp) off), completes_as (Arch.branch_eq _ (by simp) off),
    completes_as (Arch.branch_eq _ (by simp) off), completes_as (Arch.branch_eq _ (by simp) off)⟩

/-- HLT in EX holds nothing behind it and jumps nowhere; a step later it is in MEM and the core is halted. -/
theorem halts_of_hlt_in_ex {s t : State} (hrc : s.rc = 0) (running : s.isHalted = false)
    (hlt : s.idex.ctl = 0x600001#23) (h : step s = .next t) :
    t.isHalted = true ∧ t.pc = s.pc + 1 ∧ step t = .next t := by
  obtain rfl := eq_advance_of_running hrc running h
  have free : (s.hazardOf s.ifid.ins s.idCtl).stall = false := by
    rw [← State.holds_instrInId]
    exact State.holds_of_quiet_ex (by rw [hlt]; decide) (by rw [hlt]; decide) _
  have halted : (s.advance s.ifid.ins s.idCtl).isHalted = true := by
    rw [State.isHalted_iff, State.advance_rc, State.advance_exmem, hlt]
    exact ⟨hrc, show Ctl.hlt 0x600001#23 = true by decide⟩
  refine ⟨halted, ?_, step_of_halted halted⟩
  rw [advance_of_no_stall (by rw [hlt]; decide) free, State.latchNormal_pc]

/-- Settles O44: HLT completes, and the step after it is the one with HLT in EX. -/
theorem hltCompletes : Obligations.HltCompletes := by
  intro ign s hrc ready
  have ⟨_, noHalt, issues⟩ := ready
  have running : (s.latchNormal (s.content (.hlt ign))).isHalted = false :=
    State.not_halted_of_hlt (s.noHaltInFlight_iff.mp noHalt).1
  have inEx : (s.latchNormal (s.content (.hlt ign))).idex.ctl = 0x600001#23 :=
    (controlWord_fixed 1 s.flags (by decide)).trans (by decide)
  obtain ⟨t, answers, latched, settled⟩ := completes ready
  obtain rfl : s.latchNormal (s.content (.hlt ign)) = t :=
    Host.Outcome.next.inj ((exec_of_issues issues).symm.trans answers)
  refine ⟨_, answers, latched, settled, running, fun u h => ?_⟩
  have hrcEx : (s.latchNormal (s.content (.hlt ign))).rc = 0 := hrc
  obtain ⟨halted, pc, fixed⟩ := halts_of_hlt_in_ex hrcEx running inEx h
  have address : s.settle.next = s.pc - 1 := by rw [State.settle, (State.free_of_issues issues).1]; rfl
  refine ⟨halted, ?_, fixed⟩
  rw [pc, State.latchNormal_pc, address]
  bv_omega

/-! ## The statements about the step -/

/-- With a bubble in EX the reading is what the older instructions leave. -/
theorem State.settle_of_bubble {s : State} (h : s.idex = IdEx.bubble) : s.settle
    = { regs := s.afterMem.1, flags := s.flags, next := s.pc - 1, data := s.afterMem.2, halted := s.exmem.ctl.hlt } := by
  have flags : s.exFlags = s.flags := State.exFlags_of_no_fi (by simp [h])
  simp [State.settle, State.afterEx, complete, memAccess, Regs.writeBack, h, flags]

/-- Settles O48: an instruction's flags are written a step after it enters EX, its access is made a step later, and its
register write one more step later. -/
theorem settledStateIsReached : Obligations.SettledStateIsReached := by
  intro s a b c hrc running stepA runningA stepB runningB stepC
  obtain rfl := eq_advance_of_running hrc running stepA
  have hrcA : (s.advance s.ifid.ins s.idCtl).rc = 0 := (State.advance_rc ..).trans hrc
  obtain rfl := eq_advance_of_running hrcA runningA stepB
  obtain rfl := eq_advance_of_running ((State.advance_rc ..).trans hrcA) runningB stepC
  refine ⟨State.advance_flags .., ?_, ?_⟩
  · have access := congrArg Prod.snd (s.afterMem_advance s.ifid.ins s.idCtl)
    exact (State.advance_data ..).trans access
  · rw [State.advance_regs, State.wbRegs_advance, State.afterMem_advance]
    rfl

/-- Settles O49, latch case by latch case: a flush and a stall leave a bubble in EX behind the older instructions, and the
normal latch executes the instruction in ID. -/
theorem stepsFollowProgramOrder : Obligations.StepsFollowProgramOrder := by
  intro s t hrc noHalt word h
  obtain ⟨noHltEx, noHltMem⟩ := s.noHaltInFlight_iff.mp noHalt
  obtain rfl := eq_advance_of_running hrc (State.not_halted_of_hlt noHltMem) h
  have bubbled (hbubble : (s.advance s.ifid.ins s.idCtl).idex = IdEx.bubble) : (s.advance s.ifid.ins s.idCtl).settle
      = { s.settle with next := (s.advance s.ifid.ins s.idCtl).pc - 1 } := by
    rw [State.settle_of_bubble hbubble, State.afterMem_advance, State.advance_flags, State.advance_exmem]
    simp [State.settle, noHltEx, noHltMem]
  rw [State.holds_instrInId]
  obtain ⟨jump, flushed⟩ | ⟨noJump, stall, stalled⟩ | ⟨noJump, free, entered⟩ := advance_cases s s.ifid.ins s.idCtl
  · have target : s.settle.next = s.jumpTarget := by rw [State.settle, jump]; rfl
    refine .inl ⟨jump, ?_, by rw [flushed]; rfl, by rw [flushed]; rfl, ?_⟩
    · rw [flushed, target, State.latchFlush_pc]
    · rw [bubbled (by rw [flushed]; rfl), target, flushed, State.latchFlush_pc]
  · refine .inr (.inl ⟨noJump, stall, by rw [stalled]; rfl, ?_⟩)
    rw [bubbled (by rw [stalled]; rfl), stalled, State.latchStall_pc]
    simp [State.settle, noJump]
  · refine .inr (.inr ⟨noJump, free, ?_⟩)
    have content : s.idContent s.ifid.ins s.idCtl = s.content s.instrInId := by
      rw [State.content, State.encode_instrInId, State.tableWord_instrInId]
    rw [entered, content]
    exact State.settle_enter word noHltMem noJump (s.holds_instrInId.trans free)

end Sys2Proof.Machine
end

section
/-! PROOFS. The bits a format ignores (30_encoding.md R103, 60_exceptions.md R414): clearing them keeps every field that the
instruction's control word makes any use of, and nothing but those fields enters the hazard unit's answer or the reading. -/

namespace Sys2Proof.Machine

/-- Two words have the same opcode and the same fields, as far as the control word `w` makes use of them. -/
structure SameOperands (w : Ctl) (ins ins' : Word) : Prop where
  opcode : opcodeOf ins = opcodeOf ins'
  dest : w.wben = true → fieldC ins = fieldC ins'
  portA : w.leftUnused = false → fieldA ins = fieldA ins'
  portB : w.rightUnused = false → fieldB ins = fieldB ins'
  immI5 : w.selRightOp = 1 → immI5 ins = immI5 ins'
  immS5 : w.selRightOp = 2 → immS5 ins = immS5 ins'
  immK8 : w.selStoreOp = 2 → immK8 ins = immK8 ins'
  immU8 : w.selStoreOp = 3 → immU8 ins = immU8 ins'
  off : w.j = true → w.jabs = false → immD10 ins = immD10 ins'

theorem SameOperands.refl (w : Ctl) (ins : Word) : SameOperands w ins ins := by
  constructor <;> simp

/-! ## The canonical form (30_encoding.md R103) -/

theorem wellFormed_canonical (i : Instr) : i.canonical.wellFormed = true := by
  cases i <;> rfl

theorem opcode_canonical (i : Instr) : i.canonical.opcode = i.opcode := by
  cases i <;> rfl

theorem tableWord_canonical (i : Instr) (f : Flags) : tableWord i.canonical f = tableWord i f :=
  congrArg (controlWord f) (opcode_canonical i)

section Formats
variable {g : Signals} {o : Opcode}

/-- A row that uses no field at all. -/
theorem sameOperands_of_no_field {ins ins' : Word} (opcode : opcodeOf ins = opcodeOf ins')
    (h : g = idleRow ∨ g = { idleRow with hlt := true }) : SameOperands g.pack ins ins' := by
  rcases h with rfl | rfl <;> constructor <;> simp [idleRow, opcode]

theorem sameOperands_formatRRR {c c' a b : RegIdx} {low low' : BitVec 2} (dest : g.wben = true → c = c')
    (right : g.selRightOp = 0) (storeOp : g.selStoreOp = 0 ∨ g.selStoreOp = 1) (jump : g.j = g.jabs) :
    SameOperands g.pack (formatRRR o c a b low) (formatRRR o c' a b low') := by
  rcases storeOp with storeOp | storeOp <;> constructor <;> simp_all

theorem sameOperands_formatRRI {c c' a : RegIdx} {imm imm' : BitVec 5} (dest : g.wben = true → c = c')
    (unused : g.rightUnused = true) (right : g.selRightOp = 1 → imm = imm') (notS5 : g.selRightOp ≠ 2)
    (storeOp : g.selStoreOp = 0) (noJump : g.j = false) :
    SameOperands g.pack (formatRRI o c a imm) (formatRRI o c' a imm') := by
  constructor <;> simp_all [immI5]

/-- A row that uses the offset alone. -/
theorem sameOperands_formatJ10 {ign ign' : BitVec 1} {off : BitVec 10} {taken : Bool} :
    SameOperands { idleRow with j := taken }.pack (formatJ10 o ign off) (formatJ10 o ign' off) := by
  constructor <;> simp [idleRow, immD10]

end Formats

/-- The bits cleared lie in no field that the row of the instruction uses. -/
theorem sameOperands_canonical (i : Instr) (f : Flags) :
    SameOperands (tableWord i f) (encode i) (encode i.canonical) := by
  have opcode : opcodeOf (encode i) = opcodeOf (encode i.canonical) := by
    rw [opcodeOf_encode, opcodeOf_encode, opcode_canonical]
  cases i with
  | load | store | li | lui | addi | subi | andi | ori | xori => exact SameOperands.refl _ _
  | nop | rsvd19 | rsvd23 => exact sameOperands_of_no_field opcode (.inl rfl)
  | hlt => exact sameOperands_of_no_field opcode (.inr rfl)
  | cmp | jr => exact sameOperands_formatRRR (fun write => nomatch write) rfl (.inl rfl) rfl
  | add | sub | and | or | xor | adc | sbc => exact sameOperands_formatRRR (fun _ => rfl) rfl (.inl rfl) rfl
  | jalr => exact sameOperands_formatRRR (fun _ => rfl) rfl (.inr rfl) rfl
  | not =>
    have noImmediate : (0 : BitVec 2) ≠ 1 ∧ (0 : BitVec 2) ≠ 2 := by decide
    exact sameOperands_formatRRI (fun _ => rfl) rfl (fun imm => absurd imm noImmediate.1) noImmediate.2 rfl rfl
  | cmpi =>
    have notS5 : (1 : BitVec 2) ≠ 2 := by decide
    exact sameOperands_formatRRI (fun write => nomatch write) rfl (fun _ => rfl) notS5 rfl rfl
  | jmp => exact sameOperands_formatJ10 (taken := true)
  | beq | bne | blt | bgt | bltu | bgtu => exact sameOperands_formatJ10

/-! ## What depends on the fields in use -/

section IdContent
variable (s : State) (ins : Word) (w : Ctl)

@[simp] theorem State.idContent_ctl : (s.idContent ins w).ctl = w := rfl
@[simp] theorem State.idContent_left : (s.idContent ins w).left = (s.hazardOf ins w).vA := rfl
@[simp] theorem State.idContent_right :
    (s.idContent ins w).right = rightOperand w.selRightOp ins (s.hazardOf ins w).vB := rfl
@[simp] theorem State.idContent_storeOp :
    (s.idContent ins w).storeOp = storeOperand w.selStoreOp ins (s.hazardOf ins w).vB s.pc := rfl

end IdContent

theorem rightOperand_eq (sel : BitVec 2) (ins portB : Word) : rightOperand sel ins portB
    = if sel = 0 then portB else if sel = 1 then immI5 ins else if sel = 2 then immS5 ins else 0 := by
  rcases two_bit_cases sel with rfl | rfl | rfl | rfl <;> rfl

theorem storeOperand_eq (sel : BitVec 2) (ins portB pc : Word) : storeOperand sel ins portB pc
    = if sel = 0 then portB else if sel = 1 then pc else if sel = 2 then immK8 ins else immU8 ins := by
  rcases two_bit_cases sel with rfl | rfl | rfl | rfl <;> rfl

section Same
variable {w : Ctl} {ins ins' : Word} (same : SameOperands w ins ins')
include same

/-- The hazard unit holds both or neither. -/
theorem hazardStall_congr (exCtl : Ctl) (exSel : RegIdx) (memCtl : Ctl) (memSel : RegIdx) :
    hazardStall ins w exCtl exSel memCtl memSel = hazardStall ins' w exCtl exSel memCtl memSel := by
  have portA : portSelect w.leftUnused (fieldA ins) exCtl exSel memCtl memSel
      = portSelect w.leftUnused (fieldA ins') exCtl exSel memCtl memSel := by
    cases used : w.leftUnused
    · rw [same.portA used]
    · rfl
  have portB : portSelect w.rightUnused (fieldB ins) exCtl exSel memCtl memSel
      = portSelect w.rightUnused (fieldB ins') exCtl exSel memCtl memSel := by
    cases used : w.rightUnused
    · rw [same.portB used]
    · rfl
  rw [hazardStall, hazardStall, portA, portB, flagStall, flagStall, readsFlags, readsFlags, same.opcode]

theorem vA_congr (s : State) (used : w.leftUnused = false) : (s.hazardOf ins w).vA = (s.hazardOf ins' w).vA := by
  simp only [State.hazardOf, hazard, same.portA used]

theorem vB_congr (s : State) (used : w.rightUnused = false) : (s.hazardOf ins w).vB = (s.hazardOf ins' w).vB := by
  simp only [State.hazardOf, hazard, same.portB used]

/-- The right operand, where its selection is port B only for an instruction that uses that port. -/
theorem right_congr (s : State) (used : w.selRightOp = 0 → w.rightUnused = false) :
    (s.idContent ins w).right = (s.idContent ins' w).right := by
  rw [State.idContent_right, State.idContent_right, rightOperand_eq, rightOperand_eq]
  split_ifs with portB immI5 immS5
  · exact vB_congr same s (used portB)
  · exact same.immI5 immI5
  · exact same.immS5 immS5
  · rfl

theorem storeOp_congr (s : State) (used : w.selStoreOp = 0 → w.rightUnused = false) :
    (s.idContent ins w).storeOp = (s.idContent ins' w).storeOp := by
  rw [State.idContent_storeOp, State.idContent_storeOp, storeOperand_eq, storeOperand_eq]
  split_ifs with portB link immK8
  · exact vB_congr same s (used portB)
  · rfl
  · exact same.immK8 immK8
  · exact same.immU8 (by bv_omega)

/-- The ALU's answer: an operand that differs is one the ALU does not use. -/
theorem aluValue_congr (table : Consistent w) (s : State) (aluF : Word) :
    (s.idContent ins w).aluValue aluF = (s.idContent ins' w).aluValue aluF := by
  by_cases idle : w.i = 0
  · rw [IdEx.aluValue_of_idle (k := s.idContent ins w) idle, IdEx.aluValue_of_idle (k := s.idContent ins' w) idle]
  · have left : (s.hazardOf ins w).vA = (s.hazardOf ins' w).vA :=
      vA_congr same s (Bool.eq_false_iff.mpr fun unused => idle (table.left_idle unused))
    by_cases alone : w.rs = 1
    · simp [IdEx.aluValue, aluRoute_eq, alone, left]
    · have right : (s.idContent ins w).right = (s.idContent ins' w).right := by
        refine right_congr same s fun portB => Bool.eq_false_iff.mpr fun unused => ?_
        rcases table.right_idle unused with h | h | h
        · exact idle h
        · exact alone h
        · rw [portB] at h
          exact absurd h (by decide)
      simp only [IdEx.aluValue, State.idContent_ctl, State.idContent_left, left, right]

end Same

/-! ## What an instruction that enters EX does with its content -/

/-- An access takes the store operand only where the row asserts it or stores it. -/
theorem memAccess_congr {w : Ctl} {op op' : Word} (h : w.assertStoreOp = true ∨ w.memStore = true → op = op') (y : Word)
    (d : DataSpace) : memAccess w y op d = memAccess w y op' d := by
  by_cases used : w.assertStoreOp = true ∨ w.memStore = true
  · rw [h used]
  · rw [not_or, Bool.not_eq_true, Bool.not_eq_true] at used
    simp [memAccess, used]

/-- Contents that differ only where the control word makes no use of them have the same effect. -/
theorem Arch.issue_congr {k k' : IdEx} (ctl : k.ctl = k'.ctl) (dest : k.ctl.wben = true → k.selC = k'.selC)
    (storeOp : k.ctl.assertStoreOp = true ∨ k.ctl.memStore = true → k.storeOp = k'.storeOp)
    (off : k.ctl.j = true → k.ctl.jabs = false → k.off = k'.off) (t : Arch) (v : AluValue) :
    t.issue k v = t.issue k' v := by
  have completed : complete k.ctl k.selC v.fc k.storeOp t.regs t.data
      = complete k'.ctl k'.selC v.fc k'.storeOp t.regs t.data := by
    rw [complete, complete, memAccess_congr storeOp, ctl]
    cases write : k'.ctl.wben
    · simp [Regs.writeBack, write]
    · rw [dest (ctl ▸ write)]
  have target : (if k.ctl.j then (if k.ctl.jabs then v.fc else t.next + 2 + k.off) else t.next + 1)
      = if k'.ctl.j then (if k'.ctl.jabs then v.fc else t.next + 2 + k'.off) else t.next + 1 := by
    rw [← ctl]
    split_ifs with jump absolute
    · rfl
    · rw [off jump (Bool.eq_false_iff.mpr absolute)]
    · rfl
  rw [Arch.issue, Arch.issue, completed, target, ctl]

/-- Words with the same operands leave the same program-order state when they enter EX. -/
theorem settle_congr {w : Ctl} {ins ins' : Word} (same : SameOperands w ins ins') (table : Consistent w) (s : State) :
    (s.latchNormal (s.idContent ins w)).settle = (s.latchNormal (s.idContent ins' w)).settle := by
  rw [State.settle_latchNormal, State.settle_latchNormal, aluValue_congr same table]
  exact Arch.issue_congr (k := s.idContent ins w) (k' := s.idContent ins' w) rfl same.dest
    (fun used => storeOp_congr same s (table.storeOp_used used)) same.off _ _

/-- Settles O4: both words take the same latch case, and where they enter EX they have the same operands. -/
theorem ignoredBitsHaveNoEffect : Obligations.IgnoredBitsHaveNoEffect := by
  intro i s
  have same := sameOperands_canonical i s.flags
  have table : Consistent (tableWord i s.flags) := consistent_of_inDecoderTable (inDecoderTable_controlWord _ _)
  have holds : s.holds i.canonical = s.holds i := by
    rw [State.holds, State.holds, tableWord_canonical]
    exact (hazardStall_congr same _ _ _ _).symm
  refine ⟨wellFormed_canonical i, holds, fun t u ht hu => ?_⟩
  obtain ⟨-, ⟨jump, rfl⟩ | ⟨noJump, held, rfl⟩ | ⟨noJump, free, rfl⟩⟩ := exec_next_cases ht
  · obtain rfl := (exec_next_eq_advance hu).trans (advance_of_jump jump)
    exact ⟨rfl, rfl⟩
  · obtain rfl := (exec_next_eq_advance hu).trans (advance_of_stall noJump (holds.trans held))
    exact ⟨rfl, rfl⟩
  · obtain rfl := (exec_next_eq_advance hu).trans (advance_of_no_stall noJump (holds.trans free))
    rw [tableWord_canonical]
    exact ⟨settle_congr same table s, rfl⟩

end Sys2Proof.Machine
end

section
/-! PROOFS. The host (60_exceptions.md R408 to R411, 20_memory.md R71, 70_reset_and_hazards.md R431 to R435, 43_pipeline.md
R276): its array as fetch reads it, a placed word, the register accessors, snapshots, boot and `run()`. -/

namespace Sys2Proof.Machine

/-! ## The host's array (20_memory.md R71) -/

/-- A word of the array, read back from the list that starts at address `k`; past the end it is 0x0000. -/
theorem Memory.read_ofWordsFrom (ws : List Word) {k : Nat} {a : Word} (hk : k ≤ a.toNat) :
    (Memory.ofWordsFrom k ws).read a = ws.getD (a.toNat - k) 0 := by
  induction ws generalizing k with
  | nil => rfl
  | cons v rest ih =>
    have inSpace : k < 2 ^ 16 := Nat.lt_of_le_of_lt hk a.isLt
    have unlisted : (Memory.ofWordsFrom (k + 1) rest).read a
        = if k = a.toNat then unlistedWord else rest.getD (a.toNat - (k + 1)) 0 := by
      split
      · exact Memory.read_below a (Memory.wfFrom_ofWordsFrom rest (k + 1)) (by omega)
      · exact ih (by omega)
    have word : (v :: rest).getD (a.toNat - k) 0 = if k = a.toNat then v else rest.getD (a.toNat - (k + 1)) 0 := by
      split
      · rw [show a.toNat - k = 0 by omega, List.getD_cons_zero]
      · rw [show a.toNat - k = a.toNat - (k + 1) + 1 by omega, List.getD_cons_succ]
    rw [Memory.ofWordsFrom, if_pos inSpace, word]
    split
    · rw [unlisted, ‹v = unlistedWord›]
    · rw [Memory.read, unlisted]
      split <;> rfl

theorem State.fetch_setInstructions (s : State) (ws : List Word) (a : Word) :
    (s.setInstructions ws).fetch a = ws.getD a.toNat 0 :=
  Memory.read_ofWordsFrom ws (Nat.zero_le _)

theorem imem_of_step {s t : State} (h : step s = .next t) : t.imem = s.imem := by
  obtain ⟨-, rfl⟩ | ⟨-, rfl⟩ | ⟨-, -, -, rfl⟩ := step_next_cases h
  · rfl
  · rfl
  · exact State.advance_imem ..

/-- Settles O57: the listed words are the array's, the others 0x0000, and only the host writes them. -/
theorem fetchReadsTheHostsArray : Obligations.FetchReadsTheHostsArray := by
  refine ⟨fun s ws a => ⟨?_, Memory.wf_ofWords ws⟩, by decide, fun s t => imem_of_step⟩
  rw [State.fetch_setInstructions]
  split
  · exact List.getD_eq_getElem _ _ _
  · exact List.getD_eq_default _ _ (by omega)

/-! ## A placed word -/

theorem decode_of_decodeTableWord {w : Nat} {i : Instr} (h : decodeTableWord 16 w = some i) :
    decode (BitVec.ofNat 16 (w % 2 ^ 16)) = i :=
  Option.some.inj h

/-- With a bubble in MEM no answer of the host is asked for. -/
theorem State.answered_of_bubble {s : State} (h : s.exmem = ExMem.bubble) : s.refusedAnswer = none := by
  simp [State.refusedAnswer, h]

/-- Behind bubbles every instruction is ready. -/
theorem State.ready_of_bubbles {s : State} (hex : s.idex = IdEx.bubble) (hmem : s.exmem = ExMem.bubble) (i : Instr) :
    s.readyFor i := by
  refine ⟨hex ▸ inDecoderTable_nopWord, ?_, ?_⟩
  · simp [State.noHaltInFlight, hex, hmem]
  · simp [State.issues, hex, State.holds_of_bubble hex, State.answered_of_bubble hmem]

/-- Settles O27: the word stands in ID behind bubbles, and in memory where it was fetched from. -/
theorem placedWordRunsAtOnce : Obligations.PlacedWordRunsAtOnce := by
  intro s w i wf decoded
  obtain rfl := decode_of_decodeTableWord decoded
  refine ⟨?_, State.ready_of_bubbles rfl rfl _, Memory.read_write_same _ _ wf⟩
  exact step_of_running rfl (State.not_halted_of_hlt (by simp))

/-! ## The accessors and the snapshot -/

theorem ofNat_eq_iff_of_lt {i j : Nat} (hi : i < 8) (hj : j < 8) : BitVec.ofNat 3 i = BitVec.ofNat 3 j ↔ i = j := by
  rw [← BitVec.toNat_inj, BitVec.toNat_ofNat, BitVec.toNat_ofNat, Nat.mod_eq_of_lt hi, Nat.mod_eq_of_lt hj]

theorem State.getRegister_of_lt (s : State) {i : Nat} (h : i < 8) :
    s.getRegister i = .ok (s.regs.read (BitVec.ofNat 3 i)) := if_pos h

/-- Settles O55: the range checks, then the law of a register read after a write. -/
theorem registerAccessorsRefuseMisuse : Obligations.RegisterAccessorsRefuseMisuse := by
  intro s i v
  refine ⟨fun beyond => ⟨if_neg (Nat.not_lt.mpr beyond), if_neg (Nat.not_lt.mpr beyond)⟩, s.getRegister_of_lt,
    fun within large => (if_pos within).trans (if_neg (Nat.not_lt.mpr large)), fun within small => ?_⟩
  refine ⟨_, (if_pos within).trans (if_pos small), rfl, Regs.read_write_same .., fun j hj => ?_⟩
  rw [State.getRegister_of_lt _ hj, s.getRegister_of_lt hj, Regs.read_write]
  simp only [ofNat_eq_iff_of_lt within hj, eq_comm (a := i)]
  split <;> rfl

/-- Settles O56, field by field. -/
theorem snapshotRoundTrips : Obligations.SnapshotRoundTrips := fun _ u => ⟨rfl, rfl, u.restore_imem _, u.restore_data _⟩

/-! ## Reset and boot (70_reset_and_hazards.md R431 to R435) -/

theorem resetCycles_pos : 0 < Config.resetCycles := Nat.succ_pos _

/-- Settles O50: reset leaves bubbles, a word of the table in each boundary register, and a counter above 0. -/
theorem resetStateIsQuiet : Obligations.ResetStateIsQuiet := by
  have resetting : State.reset.isResetting = true := (State.isResetting_iff _).mpr resetCycles_pos
  have running : State.reset.isHalted = false := State.not_halted_of_hlt (by decide)
  have notStalling : State.reset.isStalling = false :=
    Bool.eq_false_iff.mpr fun stalling => resetCycles_pos.ne' (State.reset.isStalling_iff.mp stalling).1
  exact ⟨Regs.read_zero, rfl, rfl, rfl, rfl, rfl, rfl, rfl, rfl, resetting, running, notStalling,
    ⟨inDecoderTable_nopWord, inDecoderTable_nopWord, inDecoderTable_nopWord⟩, fun _ => ⟨rfl, rfl, rfl, rfl, rfl⟩,
    ⟨.inl rfl, .inl rfl⟩, State.reset_imem_wf, rfl⟩

/-- After a reset, steps only count while the counter is above 0. -/
theorem run_hostReset (s : State) (kind : ResetKind) (n m r : Nat) :
    core.run (n + m) { s.hostReset kind with rc := n + r } = core.run m { s.hostReset kind with rc := r } := by
  induction n with
  | zero => rw [Nat.zero_add, Nat.zero_add]
  | succ n ih =>
    have counts : step { s.hostReset kind with rc := n + 1 + r } = .next { s.hostReset kind with rc := n + r } := by
      rw [step_of_resetting (by simp only; omega), show n + r = n + 1 + r - 1 by omega]
      rfl
    rw [Nat.add_right_comm, run_succ_of_next counts, ih]

/-- The step behind bubbles keeps the registers and fetches the word at the PC. -/
theorem step_of_bubbles {s : State} (hrc : s.rc = 0) (hex : s.idex = IdEx.bubble) (hmem : s.exmem = ExMem.bubble) :
    step s = .next (s.latchNormal (s.idContent s.ifid.ins s.idCtl)) := by
  have noJump : s.idex.ctl.j = false := by simp [hex]
  have free : (s.hazardOf s.ifid.ins s.idCtl).stall = false := by
    rw [← State.holds_instrInId]
    exact State.holds_of_bubble hex _
  rw [step_next_of_running hrc (State.not_halted_of_hlt (by simp [hmem])) (State.answered_of_bubble hmem),
    advance_of_no_stall noJump free]

/-- Settles O53: the counter runs down, the next step fetches behind bubbles, and the one after it runs the word. -/
theorem programStartsAtAddressZero : Obligations.ProgramStartsAtAddressZero := by
  intro s kind
  have resets (m : Nat) : core.run (Config.resetCycles + m) (s.hostReset kind)
      = core.run m { s.hostReset kind with rc := 0 } := run_hostReset s kind Config.resetCycles m 0
  have fetches : step { s.hostReset kind with rc := 0 } = .next _ := step_of_bubbles rfl rfl rfl
  refine ⟨fun n hn => ?_, resets 0, _, (resets 1).trans (run_succ_of_next fetches 0), rfl, rfl, ?_, ?_⟩
  · obtain ⟨r, hr⟩ := Nat.exists_eq_add_of_lt hn
    refine ⟨{ s.hostReset kind with rc := r + 1 }, ?_, rfl⟩
    have counted := run_hostReset s kind n 0 (r + 1)
    rw [← Nat.add_assoc, ← hr] at counted
    exact counted
  · simp [State.wbRegs, Regs.writeBack]
  · exact step_of_running rfl (State.not_halted_of_hlt (by simp))

/-! ## `run()` (43_pipeline.md R276) -/

theorem run_succ_eq_next {s t : State} {n : Nat} (h : core.run (n + 1) s = .next t) :
    ∃ u, step s = .next u ∧ core.run n u = .next t := by
  cases hs : step s with
  | next u => exact ⟨u, rfl, (run_succ_of_next hs n).symm.trans h⟩
  | fault f => exact nomatch f
  | refused r =>
    have refused : core.run (n + 1) s = .refused r := by
      have hcore : core.step s = .refused r := hs
      simp only [Host.Core.run, hcore]
    cases refused.symm.trans h

theorem State.runFor_of_halted {s : State} (h : s.isHalted = true) (fuel : Nat) : s.runFor fuel = .halted s := by
  unfold State.runFor
  exact if_pos h

theorem State.runFor_succ_of_next {s t : State} (running : s.isHalted = false) (h : step s = .next t) (fuel : Nat) :
    s.runFor (fuel + 1) = t.runFor fuel := by
  rw [State.runFor, running, h]
  rfl

/-- What `run()` did when it returned: nothing, being halted, or one step and then the rest. -/
theorem State.runFor_halted_cases {s t : State} {fuel : Nat} (h : s.runFor fuel = .halted t) :
    (s.isHalted = true ∧ t = s) ∨ ∃ k u, fuel = k + 1 ∧ step s = .next u ∧ u.runFor k = .halted t := by
  cases running : s.isHalted with
  | true => exact .inl ⟨rfl, RunOutcome.halted.inj (h.symm.trans (State.runFor_of_halted running fuel))⟩
  | false =>
    right
    cases fuel with
    | zero =>
      rw [State.runFor, running] at h
      cases h
    | succ k =>
      cases hs : step s with
      | next u => exact ⟨k, u, rfl, rfl, (State.runFor_succ_of_next running hs k).symm.trans h⟩
      | fault f => exact nomatch f
      | refused r =>
        rw [State.runFor, running, hs] at h
        cases h

theorem run_of_runFor {s t : State} {fuel : Nat} (h : s.runFor fuel = .halted t) :
    t.isHalted = true ∧ ∃ n, core.run n s = .next t := by
  induction fuel generalizing s with
  | zero =>
    obtain ⟨halted, rfl⟩ | ⟨k, u, hk, -, -⟩ := State.runFor_halted_cases h
    · exact ⟨halted, 0, rfl⟩
    · cases hk
  | succ fuel ih =>
    obtain ⟨halted, rfl⟩ | ⟨k, u, hk, hs, rest⟩ := State.runFor_halted_cases h
    · exact ⟨halted, 0, rfl⟩
    · obtain rfl := Nat.succ.inj hk
      obtain ⟨halted, n, run⟩ := ih rest
      exact ⟨halted, n + 1, (run_succ_of_next hs n).trans run⟩

theorem runsTo_of_run {s t : State} {n : Nat} (halted : t.isHalted = true) (h : core.run n s = .next t) :
    s.runsTo t := by
  induction n generalizing s with
  | zero =>
    obtain rfl := Host.Outcome.next.inj h
    exact ⟨0, State.runFor_of_halted halted 0⟩
  | succ n ih =>
    obtain ⟨u, hs, rest⟩ := run_succ_eq_next h
    obtain ⟨fuel, returned⟩ := ih rest
    cases running : s.isHalted with
    | true =>
      obtain rfl := Host.Outcome.next.inj ((step_of_halted running).symm.trans hs)
      exact ⟨fuel, returned⟩
    | false => exact ⟨fuel + 1, (State.runFor_succ_of_next running hs fuel).trans returned⟩

/-- Settles O54: by induction on the number of steps, either way. -/
theorem runStepsUntilHalted : Obligations.RunStepsUntilHalted :=
  fun _ _ => ⟨State.runFor_of_halted, fun ⟨_, returned⟩ => run_of_runFor returned,
    fun ⟨halted, _, reached⟩ => runsTo_of_run halted reached⟩

end Sys2Proof.Machine
end
